-- ==== Sys2Proof/Word.lean ====
section
/-! DEFINITION. The word types of the machine (00_scope.md R8, R11). -/

namespace Sys2Proof

/-- An 8-bit unsigned value: a V register, a timer, a memory byte. -/
abbrev Byte := BitVec 8

/-- A 16-bit unsigned value: an opcode, `pc`, `I`, a stack slot. -/
abbrev Word := BitVec 16

/-- The 12-bit address operand NNN. -/
abbrev Addr := BitVec 12

/-- The number of a general register, 0 to 15. -/
abbrev Reg := Fin 16

/-- The number of a key, 0 to 15. -/
abbrev Key := Fin 16

end Sys2Proof
end

