-- ==== Sys2Proof/Config.lean ====
section
/-! DEFINITION. What is fixed for the machine: its sizes (00_scope.md R8), its policy parameters (R9), the built-in
font (20_memory.md R53), and the free values the spec leaves to the host (10_state.md R33, R34). -/

namespace Sys2Proof

/-- MEM_SIZE of R8. -/
abbrev memSize : Nat := 4096

/-- STACK_DEPTH of R8; every rule is written in it. -/
abbrev stackDepth : Nat := 16

/-- PROGRAM_BASE of R8. -/
abbrev programBase : Nat := 0x200

/-- PROGRAM_MAX of R8. -/
abbrev programMax : Nat := 3584

/-- The font region is 16 glyphs of 5 bytes (R8, R52). -/
abbrev fontSize : Nat := 80

/-- SCREEN_W of R8. -/
abbrev screenW : Nat := 64

/-- SCREEN_H of R8. -/
abbrev screenH : Nat := 32

/-- SHIFT_SOURCE of R9: the register 8XY6 and 8XYE shift. -/
inductive ShiftSource
  | vx
  | vy
  deriving DecidableEq, Repr

/-- JUMP_OFFSET_REG of R9: the register the jump with offset adds. -/
inductive JumpOffsetReg
  | v0
  | vx
  deriving DecidableEq, Repr

/-- FAMILY0_MATCH of R9: what of a family 0 word 00E0 and 00EE are matched on. -/
inductive Family0Match
  | fullWord
  | lowByte
  deriving DecidableEq, Repr

/-- The configuration of R9: chosen at construction, read by the rules, changed by nothing. -/
structure Config where
  shiftSource   : ShiftSource
  jumpOffsetReg : JumpOffsetReg
  /-- INDEX_ADVANCE -/
  indexAdvance  : Bool
  /-- FX1E_VF_CLEAR -/
  fx1eVfClear   : Bool
  /-- STRICT_5_9 -/
  strict59      : Bool
  family0Match  : Family0Match
  /-- FONT: the 80 bytes Reset places at 0x000 -/
  font          : Vector Byte fontSize
  deriving DecidableEq, Repr

/-- The default FONT, the table of R53, one glyph a line.
PRESUMED, unsafe for claims that read the font region: the spec supplies the bytes from general knowledge (log 8). -/
def standardFont : Vector Byte fontSize :=
  (#v[0xF0, 0x90, 0x90, 0x90, 0xF0,
      0x20, 0x60, 0x20, 0x20, 0x70,
      0xF0, 0x10, 0xF0, 0x80, 0xF0,
      0xF0, 0x10, 0xF0, 0x10, 0xF0] : Vector Byte 20) ++
  (#v[0x90, 0x90, 0xF0, 0x10, 0x10,
      0xF0, 0x80, 0xF0, 0x10, 0xF0,
      0xF0, 0x80, 0xF0, 0x90, 0xF0,
      0xF0, 0x10, 0x20, 0x40, 0x40] : Vector Byte 20) ++
  (#v[0xF0, 0x90, 0xF0, 0x90, 0xF0,
      0xF0, 0x90, 0xF0, 0x10, 0xF0,
      0xF0, 0x90, 0xF0, 0x90, 0x90,
      0xE0, 0x90, 0xE0, 0x90, 0xE0] : Vector Byte 20) ++
  (#v[0xF0, 0x80, 0x80, 0x80, 0xF0,
      0xE0, 0x90, 0x90, 0x90, 0xE0,
      0xF0, 0x80, 0xF0, 0x80, 0xF0,
      0xF0, 0x80, 0xF0, 0x80, 0x80] : Vector Byte 20)

/-- The values the spec takes (R9, last column). -/
def Config.spec : Config where
  shiftSource   := .vx
  jumpOffsetReg := .v0
  indexAdvance  := false
  fx1eVfClear   := false
  strict59      := false
  family0Match  := .fullWord
  font          := standardFont

/-! The free values. R34 calls `rnd` "any value 0..255, under no law" and `ticks` and the keypad are the host's; where
State lists no input for a cycle, each is drawn from one of these constants, which have no body (log 2). -/

/-- The active key of the n-th cycle that State lists no input for. DESIGN CHOICE, safe: nothing is known of it. -/
opaque Config.freeActiveKey : Nat → Option Key

/-- The key-down edge of the n-th such cycle. DESIGN CHOICE, safe. -/
opaque Config.freeKeyDownEdge : Nat → Bool

/-- The elapsed 60 Hz periods of the n-th such cycle. DESIGN CHOICE, safe. -/
opaque Config.freeTicks : Nat → Nat

/-- The random byte of the n-th such cycle. DESIGN CHOICE, safe. -/
opaque Config.freeRnd : Nat → Byte

end Sys2Proof
end

