-- ==== Sys2Proof/Syntax.lean ====
section
/-! DEFINITION. The instruction values (30_encoding.md R83, R87), one constructor for each row of
spec/opcode_table.json in the table's order, the operand fields already extracted (R95), and the names of the words
that are no instruction (R88). -/

namespace Sys2Proof

/-- The 35 operations of R83. `x` and `y` are register numbers, `nn` an immediate byte, `nnn` an address, `n` a row
count (R84). -/
inductive Instr
  /-- 0NNN, R130 -/
  | sys (nnn : Addr)
  /-- 00E0, R200 -/
  | cls
  /-- 00EE, R131 -/
  | ret
  /-- 1NNN, R132 -/
  | jp (nnn : Addr)
  /-- 2NNN, R133 -/
  | call (nnn : Addr)
  /-- 3XNN, R134 -/
  | seImm (x : Reg) (nn : Byte)
  /-- 4XNN, R135 -/
  | sneImm (x : Reg) (nn : Byte)
  /-- 5XY0, R136 -/
  | seReg (x y : Reg)
  /-- 6XNN, R150 -/
  | ldImm (x : Reg) (nn : Byte)
  /-- 7XNN, R151 -/
  | addImm (x : Reg) (nn : Byte)
  /-- 8XY0, R152 -/
  | ldReg (x y : Reg)
  /-- 8XY1, R153 -/
  | or (x y : Reg)
  /-- 8XY2, R154 -/
  | and (x y : Reg)
  /-- 8XY3, R155 -/
  | xor (x y : Reg)
  /-- 8XY4, R156 -/
  | addReg (x y : Reg)
  /-- 8XY5, R157 -/
  | sub (x y : Reg)
  /-- 8XY6, R158 -/
  | shr (x y : Reg)
  /-- 8XY7, R159 -/
  | subn (x y : Reg)
  /-- 8XYE, R160 -/
  | shl (x y : Reg)
  /-- 9XY0, R137 -/
  | sneReg (x y : Reg)
  /-- ANNN, R180 -/
  | ldI (nnn : Addr)
  /-- BNNN, R138 -/
  | jpV0 (nnn : Addr)
  /-- CXNN, R161 -/
  | rnd (x : Reg) (nn : Byte)
  /-- DXYN, R201 -/
  | drw (x y : Reg) (n : BitVec 4)
  /-- EX9E, R220 -/
  | skp (x : Reg)
  /-- EXA1, R221 -/
  | sknp (x : Reg)
  /-- FX07, R222 -/
  | ldXDt (x : Reg)
  /-- FX0A, R223 -/
  | ldXK (x : Reg)
  /-- FX15, R224 -/
  | ldDtX (x : Reg)
  /-- FX18, R225 -/
  | ldStX (x : Reg)
  /-- FX1E, R181 -/
  | addI (x : Reg)
  /-- FX29, R182 -/
  | ldF (x : Reg)
  /-- FX33, R183 -/
  | ldB (x : Reg)
  /-- FX55, R184 -/
  | ldMemX (x : Reg)
  /-- FX65, R185 -/
  | ldXMem (x : Reg)
  deriving DecidableEq, Repr

/-- Why bytes decode to no instruction, by name. All but the last are the unrecognised words of R88, which the machine
runs as a reported no-op (40_cycle.md R116); none of them is an illegal encoding (R89). -/
inductive Reject
  /-- a 5XYN word with N not 0, under STRICT_5_9 -/
  | family5 (w : Word)
  /-- an 8XYN word with N in 8 to D or F -/
  | family8 (w : Word)
  /-- a 9XYN word with N not 0, under STRICT_5_9 -/
  | family9 (w : Word)
  /-- an EXkk word with kk neither 9E nor A1 -/
  | familyE (w : Word)
  /-- an FXkk word with kk none of the nine of R86 -/
  | familyF (w : Word)
  /-- fewer than the two bytes an instruction has (R80); the machine's own fetch always reads two -/
  | tooShort
  deriving DecidableEq, Repr

end Sys2Proof
end

