-- ==== Sys2Proof/WellFormed.lean ====
section
/-! DEFINITION. Which instruction values have an encoding of their own (30_encoding.md R96). The field types bound
every operand; what is left to check is that a SYS address is not the word of 00E0 or 00EE (R86, R130). -/

namespace Sys2Proof

/-- R130: NNN is neither 0x0E0 nor 0x0EE; under FAMILY0_MATCH = low_byte, w[7:0] is neither 0xE0 nor 0xEE. -/
def sysAddrOk (cfg : Config) (nnn : Addr) : Bool :=
  match cfg.family0Match with
  | .fullWord => nnn != 0x0E0#12 && nnn != 0x0EE#12
  | .lowByte  => nnn.extractLsb' 0 8 != 0xE0#8 && nnn.extractLsb' 0 8 != 0xEE#8

/-- The check on instruction values: decode of an encoded well-formed value gives it back (R96). -/
def Instr.wellFormed (cfg : Config) : Instr → Bool
  | .sys nnn => sysAddrOk cfg nnn
  | .cls | .ret | .jp _ | .call _ | .seImm _ _ | .sneImm _ _ | .seReg _ _ | .ldImm _ _ | .addImm _ _ | .ldReg _ _
  | .or _ _ | .and _ _ | .xor _ _ | .addReg _ _ | .sub _ _ | .shr _ _ | .subn _ _ | .shl _ _ | .sneReg _ _ | .ldI _
  | .jpV0 _ | .rnd _ _ | .drw _ _ _ | .skp _ | .sknp _ | .ldXDt _ | .ldXK _ | .ldDtX _ | .ldStX _ | .addI _ | .ldF _
  | .ldB _ | .ldMemX _ | .ldXMem _ => true

end Sys2Proof
end

