-- ==== Sys2Proof/Decode.lean ====
section
/-! DEFINITION. The decoder of 30_encoding.md R87, total on every word and on any bytes, rejecting by name, and the
encoder of R96.
PRESUMED, unsafe: the opcode values are the spec's own, supplied from general knowledge of CHIP-8 (R83; log 7). -/

namespace Sys2Proof

/-! ### The fields of a word (R81) -/

/-- F = w[15:12] -/
def fieldF (w : Word) : BitVec 4 := w.extractLsb' 12 4

/-- X = w[11:8] -/
def fieldX (w : Word) : Reg := (w.extractLsb' 8 4).toFin

/-- Y = w[7:4] -/
def fieldY (w : Word) : Reg := (w.extractLsb' 4 4).toFin

/-- N = w[3:0] -/
def fieldN (w : Word) : BitVec 4 := w.extractLsb' 0 4

/-- NN = w[7:0] -/
def fieldNN (w : Word) : Byte := w.extractLsb' 0 8

/-- NNN = w[11:0] -/
def fieldNNN (w : Word) : Addr := w.extractLsb' 0 12

/-! ### Secondary dispatch (R86) -/

/-- Family 0: CLS and RET on the whole word or on its low byte, SYS otherwise. -/
def decodeFamily0 (cfg : Config) (w : Word) : Instr :=
  match cfg.family0Match with
  | .fullWord =>
    if w = 0x00E0#16 then .cls else if w = 0x00EE#16 then .ret else .sys (fieldNNN w)
  | .lowByte =>
    if fieldNN w = 0xE0#8 then .cls else if fieldNN w = 0xEE#8 then .ret else .sys (fieldNNN w)

/-- Family 5: N is looked at only under STRICT_5_9. -/
def decodeFamily5 (cfg : Config) (w : Word) : Except Reject Instr :=
  if cfg.strict59 && fieldN w != 0#4 then .error (.family5 w) else .ok (.seReg (fieldX w) (fieldY w))

/-- Family 8: the low nibble. -/
def decodeFamily8 (w : Word) : Except Reject Instr :=
  match fieldN w with
  | 0x0#4 => .ok (.ldReg (fieldX w) (fieldY w))
  | 0x1#4 => .ok (.or (fieldX w) (fieldY w))
  | 0x2#4 => .ok (.and (fieldX w) (fieldY w))
  | 0x3#4 => .ok (.xor (fieldX w) (fieldY w))
  | 0x4#4 => .ok (.addReg (fieldX w) (fieldY w))
  | 0x5#4 => .ok (.sub (fieldX w) (fieldY w))
  | 0x6#4 => .ok (.shr (fieldX w) (fieldY w))
  | 0x7#4 => .ok (.subn (fieldX w) (fieldY w))
  | 0xE#4 => .ok (.shl (fieldX w) (fieldY w))
  | _     => .error (.family8 w)

/-- Family 9: N is looked at only under STRICT_5_9. -/
def decodeFamily9 (cfg : Config) (w : Word) : Except Reject Instr :=
  if cfg.strict59 && fieldN w != 0#4 then .error (.family9 w) else .ok (.sneReg (fieldX w) (fieldY w))

/-- Family E: the low byte. -/
def decodeFamilyE (w : Word) : Except Reject Instr :=
  match fieldNN w with
  | 0x9E#8 => .ok (.skp (fieldX w))
  | 0xA1#8 => .ok (.sknp (fieldX w))
  | _      => .error (.familyE w)

/-- Family F: the low byte. -/
def decodeFamilyF (w : Word) : Except Reject Instr :=
  match fieldNN w with
  | 0x07#8 => .ok (.ldXDt (fieldX w))
  | 0x0A#8 => .ok (.ldXK (fieldX w))
  | 0x15#8 => .ok (.ldDtX (fieldX w))
  | 0x18#8 => .ok (.ldStX (fieldX w))
  | 0x1E#8 => .ok (.addI (fieldX w))
  | 0x29#8 => .ok (.ldF (fieldX w))
  | 0x33#8 => .ok (.ldB (fieldX w))
  | 0x55#8 => .ok (.ldMemX (fieldX w))
  | 0x65#8 => .ok (.ldXMem (fieldX w))
  | _      => .error (.familyF w)

/-! ### Decode -/

/-- `decode` of R87 on the fetched word: primary dispatch on the family (R85). The last arm is family F. -/
def decodeWord (cfg : Config) (w : Word) : Except Reject Instr :=
  match fieldF w with
  | 0x0#4 => .ok (decodeFamily0 cfg w)
  | 0x1#4 => .ok (.jp (fieldNNN w))
  | 0x2#4 => .ok (.call (fieldNNN w))
  | 0x3#4 => .ok (.seImm (fieldX w) (fieldNN w))
  | 0x4#4 => .ok (.sneImm (fieldX w) (fieldNN w))
  | 0x5#4 => decodeFamily5 cfg w
  | 0x6#4 => .ok (.ldImm (fieldX w) (fieldNN w))
  | 0x7#4 => .ok (.addImm (fieldX w) (fieldNN w))
  | 0x8#4 => decodeFamily8 w
  | 0x9#4 => decodeFamily9 cfg w
  | 0xA#4 => .ok (.ldI (fieldNNN w))
  | 0xB#4 => .ok (.jpV0 (fieldNNN w))
  | 0xC#4 => .ok (.rnd (fieldX w) (fieldNN w))
  | 0xD#4 => .ok (.drw (fieldX w) (fieldY w) (fieldN w))
  | 0xE#4 => decodeFamilyE w
  | _     => decodeFamilyF w

/-- The opcode the two bytes at `pc` and `pc + 1` make: the first is bits 15..8 (20_memory.md R59). -/
def joinBytes (hi lo : Byte) : Word := hi ++ lo

/-- The byte of an opcode at `pc` (20_memory.md R59). -/
def highByte (w : Word) : Byte := w.extractLsb' 8 8

/-- The byte of an opcode at `pc + 1` (20_memory.md R59). -/
def lowByte (w : Word) : Byte := w.extractLsb' 0 8

/-- Decode from any bytes: the instruction and the bytes after it. Every instruction is two bytes (R80). -/
def decode (cfg : Config) : List Byte → Except Reject (Instr × List Byte)
  | hi :: lo :: rest =>
    match decodeWord cfg (joinBytes hi lo) with
    | .ok i    => .ok (i, rest)
    | .error e => .error e
  | [] | [_] => .error .tooShort

/-! ### Encode (R96) -/

/-- Format A of R82: F NNN -/
def packNNN (f : BitVec 4) (nnn : Addr) : Word := f ++ nnn

/-- Format XNN of R82: F X NN; also format X, whose sub-operation is the byte. -/
def packXNN (f : BitVec 4) (x : Reg) (nn : Byte) : Word := f ++ (BitVec.ofFin x : BitVec 4) ++ nn

/-- Formats XY and XYN of R82: F X Y N. -/
def packXYN (f : BitVec 4) (x y : Reg) (n : BitVec 4) : Word :=
  f ++ (BitVec.ofFin x : BitVec 4) ++ (BitVec.ofFin y : BitVec 4) ++ n

/-- The word of an instruction value: the pattern of R83 with the fields at the bits of R81. -/
def encode : Instr → Word
  | .sys nnn     => packNNN 0x0#4 nnn
  | .cls         => 0x00E0#16
  | .ret         => 0x00EE#16
  | .jp nnn      => packNNN 0x1#4 nnn
  | .call nnn    => packNNN 0x2#4 nnn
  | .seImm x nn  => packXNN 0x3#4 x nn
  | .sneImm x nn => packXNN 0x4#4 x nn
  | .seReg x y   => packXYN 0x5#4 x y 0x0#4
  | .ldImm x nn  => packXNN 0x6#4 x nn
  | .addImm x nn => packXNN 0x7#4 x nn
  | .ldReg x y   => packXYN 0x8#4 x y 0x0#4
  | .or x y      => packXYN 0x8#4 x y 0x1#4
  | .and x y     => packXYN 0x8#4 x y 0x2#4
  | .xor x y     => packXYN 0x8#4 x y 0x3#4
  | .addReg x y  => packXYN 0x8#4 x y 0x4#4
  | .sub x y     => packXYN 0x8#4 x y 0x5#4
  | .shr x y     => packXYN 0x8#4 x y 0x6#4
  | .subn x y    => packXYN 0x8#4 x y 0x7#4
  | .shl x y     => packXYN 0x8#4 x y 0xE#4
  | .sneReg x y  => packXYN 0x9#4 x y 0x0#4
  | .ldI nnn     => packNNN 0xA#4 nnn
  | .jpV0 nnn    => packNNN 0xB#4 nnn
  | .rnd x nn    => packXNN 0xC#4 x nn
  | .drw x y n   => packXYN 0xD#4 x y n
  | .skp x       => packXNN 0xE#4 x 0x9E#8
  | .sknp x      => packXNN 0xE#4 x 0xA1#8
  | .ldXDt x     => packXNN 0xF#4 x 0x07#8
  | .ldXK x      => packXNN 0xF#4 x 0x0A#8
  | .ldDtX x     => packXNN 0xF#4 x 0x15#8
  | .ldStX x     => packXNN 0xF#4 x 0x18#8
  | .addI x      => packXNN 0xF#4 x 0x1E#8
  | .ldF x       => packXNN 0xF#4 x 0x29#8
  | .ldB x       => packXNN 0xF#4 x 0x33#8
  | .ldMemX x    => packXNN 0xF#4 x 0x55#8
  | .ldXMem x    => packXNN 0xF#4 x 0x65#8

/-- The two bytes of an instruction in memory order. -/
def encodeBytes (i : Instr) : List Byte := [highByte (encode i), lowByte (encode i)]

/-! ### The host's view of one table row -/

/-- The bytes, in memory order, of an instruction whose bits are `w` as spec/opcode_table.json numbers them. A row is
one 16-bit word, so the bits at and above `nbits`, and above bit 15, are no bits of it. -/
def tableBytes (nbits w : Nat) : List Byte :=
  let word : Word := BitVec.ofNat 16 (w % 2 ^ nbits)
  [highByte word, lowByte word]

/-- What the decoder reads from a table row's word, under the spec's configuration. -/
def decodeTableWord (nbits w : Nat) : Option Instr :=
  match decode Config.spec (tableBytes nbits w) with
  | .ok (i, _) => some i
  | .error _   => none

end Sys2Proof
end

