-- ==== Sys2Proof/Machine/State.lean ====
section
/-! DEFINITION. The machine's state as plain data (10_state.md R20, R33, R34, R40; 00_scope.md R9), the reasons a step
can stop, and the state after reset (10_state.md R42, 70_reset_and_hazards.md R270). -/

namespace Sys2Proof.Machine

/-- The inputs of one cycle (10_state.md R33, R34). -/
structure CycleInput where
  /-- active_key; `none` is the "no key" sentinel -/
  activeKey   : Option Key
  /-- key_down_edge -/
  keyDownEdge : Bool
  /-- whole 60 Hz periods since the previous cycle's timer advance -/
  ticks       : Nat
  /-- the random byte CXNN draws -/
  rnd         : Byte
  deriving DecidableEq, Repr

/-- No key, no edge, no elapsed period, random byte 0: the default inputs of 95_test_vectors.md. -/
def CycleInput.quiet : CycleInput := ⟨none, false, 0, 0⟩

/-- The fatal conditions of 60_exceptions.md R240. -/
inductive FatalKind
  | stackOverflow
  | stackUnderflow
  deriving DecidableEq, Repr

/-- The fault record (10_state.md R36); `kind` is `none` while no fault has been taken. -/
structure FaultRecord where
  kind   : Option FatalKind
  addr   : Word
  opcode : Word
  deriving DecidableEq, Repr

/-- Memory as (address, byte) pairs: addresses rising, no pair equal to what an unlisted address reads as. -/
abbrev Memory := List Host.Cell

/-- The framebuffer, `fb[x][y]`: 64 columns of 32 cells, true is on (10_state.md R32). -/
abbrev Framebuffer := Vector (Vector Bool screenH) screenW

/-- The state of R20, the output signals of R40, and, because a step has no other argument, the host's inputs and the
configuration. -/
@[ext]
structure State where
  /-- V0..VF (R21) -/
  v              : Vector Byte 16
  /-- the index register I (R26) -/
  i              : Word
  /-- the program counter (R24) -/
  pc             : Word
  /-- the call-stack slots (R27) -/
  stack          : Vector Word stackDepth
  /-- the number of stack entries in use (R27) -/
  sp             : Fin (stackDepth + 1)
  /-- the delay timer (R30) -/
  dt             : Byte
  /-- the sound timer (R30) -/
  st             : Byte
  /-- memory (R31) -/
  mem            : Memory
  /-- the framebuffer (R32) -/
  fb             : Framebuffer
  /-- the current opcode (R35) -/
  op             : Word
  /-- a fatal condition has been taken (R36) -/
  halted         : Bool
  /-- the last fatal condition (R36) -/
  fault          : FaultRecord
  /-- output fb_updated (R40) -/
  fbUpdated      : Bool
  /-- output sound_on (R40) -/
  soundOn        : Bool
  /-- output diag_valid (R40) -/
  diagValid      : Bool
  /-- output diag_addr (R40) -/
  diagAddr       : Word
  /-- output diag_opcode (R40) -/
  diagOpcode     : Word
  /-- output diag_recognized (R40) -/
  diagRecognized : Bool
  /-- the inputs sampled at the start of the cycle, constant during it (40_cycle.md R114) -/
  input          : CycleInput
  /-- the model's own: the inputs of the coming Step calls, oldest first (log 2) -/
  pending        : List CycleInput
  /-- the model's own: how many cycles have drawn free inputs (log 2) -/
  freeCount      : Nat
  /-- the configuration, written by nothing (R9; log 1) -/
  cfg            : Config
  deriving DecidableEq, Repr

/-- Why a step stops with a fault. There is no such reason: no access, fetch, decode or instruction of this machine
faults outside its own state (60_exceptions.md R243), and the two fatal conditions are entered as next states, `halted`
set and the fault record written (60_exceptions.md R246; log 5). Safe: the type is empty. -/
inductive Fault
  deriving DecidableEq, Repr

/-- Why an instruction is refused. -/
inductive Refusal
  /-- raised by `exec` for an instruction that has no meaning yet; safe. No arm raises it: all 35 have their meaning. -/
  | notModelled (mnemonic : String)
  deriving DecidableEq, Repr

/-- What a Load tells the host (20_memory.md R68). -/
inductive LoadResult
  | loadOk
  | loadFailed
  deriving DecidableEq, Repr

/-- The machine right after Reset (R42, R270), with the spec's configuration (R9). Memory lists nothing: an unlisted
address reads as its reset contents (log 6).
DESIGN CHOICE, unsafe: the diagnostic address, opcode and recognised bit (log 4).
DESIGN CHOICE, safe: the sampled inputs, the pending inputs and the free-input count (log 3). -/
def State.reset : State where
  v              := Vector.replicate 16 0x00
  i              := 0x0000
  pc             := 0x0200
  stack          := Vector.replicate stackDepth 0x0000
  sp             := 0
  dt             := 0x00
  st             := 0x00
  mem            := []
  fb             := Vector.replicate screenW (Vector.replicate screenH false)
  op             := 0x0000
  halted         := false
  fault          := ⟨none, 0x0000, 0x0000⟩
  fbUpdated      := false
  soundOn        := false
  diagValid      := false
  diagAddr       := 0x0000
  diagOpcode     := 0x0000
  diagRecognized := false
  input          := .quiet
  pending        := []
  freeCount      := 0
  cfg            := .spec

end Sys2Proof.Machine
end

