-- ==== Sys2Proof/Machine/Ops.lean ====
section
/-! DEFINITION. The named operations over the state: memory and its canonical form, registers, the call stack, fatal
conditions, the framebuffer, and the parts of a cycle (10_state.md, 20_memory.md, 40_cycle.md, 60_exceptions.md). -/

namespace Sys2Proof.Machine

/-! ### Numbers (00_scope.md R12) -/

/-- trunc8(v) = v mod 256 -/
def trunc8 (n : Nat) : Byte := BitVec.ofNat 8 n

/-- trunc16(v) = v mod 65536 -/
def trunc16 (n : Nat) : Word := BitVec.ofNat 16 n

/-- zext_16 of an address operand (R12, 30_encoding.md R84) -/
def zext16 (nnn : Addr) : Word := nnn.setWidth 16

/-! ### Memory as data (20_memory.md R50 to R57) -/

/-- What an unlisted address reads as: its contents at reset, the font at 0x000 to 0x04F and zero elsewhere
(20_memory.md R51, R54; 10_state.md R42; log 6). -/
def resetByte (font : Vector Byte fontSize) (a : Nat) : Byte :=
  if h : a < fontSize then font[a] else 0

/-- The byte at a listed or unlisted address. -/
def Memory.read (font : Vector Byte fontSize) : Memory → Nat → Byte
  | [], a => resetByte font a
  | (b, u) :: rest, a => if b = a then u else Memory.read font rest a

/-- Store a byte, keeping the canonical form: storing what the address reads as when unlisted takes its entry out. -/
def Memory.write (font : Vector Byte fontSize) : Memory → Nat → Byte → Memory
  | [], a, x => if x = resetByte font a then [] else [(a, x)]
  | (b, u) :: rest, a, x =>
    if a < b then
      if x = resetByte font a then (b, u) :: rest else (a, x) :: (b, u) :: rest
    else if a = b then
      if x = resetByte font a then rest else (a, x) :: rest
    else (b, u) :: Memory.write font rest a x

/-- The canonical form from an address on: entries rising from `lo`, inside the address space, none equal to its reset
contents. -/
def Memory.wfFrom (font : Vector Byte fontSize) : Nat → Memory → Bool
  | _, [] => true
  | lo, (a, x) :: rest =>
    decide (lo ≤ a) && decide (a < memSize) && x != resetByte font a && Memory.wfFrom font (a + 1) rest

/-- The canonical form of a memory. -/
def Memory.wf (font : Vector Byte fontSize) (m : Memory) : Bool := Memory.wfFrom font 0 m

/-- MemRead(addr, 1): every address is reduced modulo 4096 at the access (R57). -/
def State.readByte (s : State) (addr : Nat) : Byte := s.mem.read s.cfg.font (addr % memSize)

/-- MemWrite(addr, 1, v) (R57). -/
def State.writeByte (s : State) (addr : Nat) (x : Byte) : State :=
  { s with mem := s.mem.write s.cfg.font (addr % memSize) x }

/-- Store bytes at ascending addresses, the first at `addr` (R59). -/
def State.storeBytes (s : State) (addr : Nat) : List Byte → State
  | [] => s
  | x :: rest => (s.writeByte addr x).storeBytes (addr + 1) rest

/-! ### Registers (10_state.md R21 to R30) -/

/-- V[x] -/
def State.reg (s : State) (x : Reg) : Byte := s.v[x.val]

/-- V[x] <- b; no register is hard-wired (R21). -/
def State.setReg (s : State) (x : Reg) (b : Byte) : State := { s with v := s.v.set x.val b }

/-- All sixteen registers at once. -/
def State.setRegs (s : State) (v : Vector Byte 16) : State := { s with v := v }

/-- VF, the flag register (R22). -/
abbrev vf : Reg := 15

/-- VF <- 1 or 0 -/
def State.setFlag (s : State) (f : Bool) : State := s.setReg vf (if f then 1 else 0)

/-- The result first and the flag last, so that the flag is the final value when X = F (R22, 00_scope.md R14, the
spec's decision D9). -/
def State.setRegFlag (s : State) (x : Reg) (r : Byte × Bool) : State := (s.setReg x r.1).setFlag r.2

/-- pc <- a -/
def State.setPc (s : State) (a : Word) : State := { s with pc := a }

/-- I <- a -/
def State.setI (s : State) (a : Word) : State := { s with i := a }

/-- DT <- b -/
def State.setDt (s : State) (b : Byte) : State := { s with dt := b }

/-- ST <- b -/
def State.setSt (s : State) (b : Byte) : State := { s with st := b }

/-- The framebuffer is written, by CLS or DRW, and offered to the host (44_display.md R204). -/
def State.setFb (s : State) (fb : Framebuffer) : State := { s with fb := fb, fbUpdated := true }

/-- Advance `pc` by 2 more when the condition holds (00_scope.md R19). -/
def State.skipIf (s : State) (c : Bool) : State := s.setPc (if c then s.pc + 2 else s.pc)

/-! ### Fatal conditions (60_exceptions.md R240 to R247) -/

/-- Taking a fatal condition: the core halts and the record holds the kind, the address of the instruction (`pc` has
had the fetch advance, so it is `pc - 2`) and its opcode; nothing else is written (40_cycle.md R117). -/
def State.takeFatal (s : State) (k : FatalKind) : State :=
  { s with halted := true, fault := ⟨some k, s.pc - 2, s.op⟩ }

/-- What `execute` returns (40_cycle.md R115): Normal with the state, or Fatal, which is taken from the state the
instruction began in. -/
def State.conclude (s : State) (r : Except FatalKind State) : Host.Outcome State Fault Refusal :=
  match r with
  | .ok t    => .next t
  | .error k => .next (s.takeFatal k)

/-- The only way back from a fatal condition: the host's Reset, which is construction again with the configuration kept
(70_reset_and_hazards.md R270, R271). The host's own inputs stay as they are. -/
def State.hostReset (s : State) : State :=
  { State.reset with cfg := s.cfg, input := s.input, pending := s.pending, freeCount := s.freeCount }

/-! ### The call stack (10_state.md R27 to R29) -/

/-- Push(v): fails when all slots are in use, else writes `stack[SP]` and then advances SP (R28). -/
def State.push (s : State) (x : Word) : Except FatalKind State :=
  if h : s.sp.val < stackDepth then
    .ok { s with stack := s.stack.set s.sp.val x, sp := ⟨s.sp.val + 1, Nat.succ_lt_succ h⟩ }
  else .error .stackOverflow

/-- Pop(): fails when no slot is in use, else retreats SP and then reads `stack[SP]`, which it leaves as it is (R29). -/
def State.pop (s : State) : Except FatalKind (Word × State) :=
  if h : 0 < s.sp.val then
    .ok (s.stack[s.sp.val - 1], { s with sp := ⟨s.sp.val - 1, by omega⟩ })
  else .error .stackUnderflow

/-! ### The framebuffer (10_state.md R32, 44_display.md R200 to R205) -/

/-- Every cell off. -/
def Framebuffer.blank : Framebuffer := Vector.replicate screenW (Vector.replicate screenH false)

/-- fb[x][y]; a place off the grid is no cell and reads as off. -/
def Framebuffer.cell (fb : Framebuffer) (x y : Nat) : Bool :=
  if h : x < screenW ∧ y < screenH then fb[x][y] else false

/-- Toggle fb[x][y]; a place off the grid is clipped (R201, the spec's decision D10). -/
def Framebuffer.toggle (fb : Framebuffer) (x y : Nat) : Framebuffer :=
  if h : x < screenW ∧ y < screenH then fb.set x (fb[x].set y (!fb[x][y])) else fb

/-- A draw in progress: the framebuffer and the collision flag. -/
abbrev Draw := Framebuffer × Bool

/-- One set sprite bit: collide if the cell is on, then toggle it (R201). -/
def drawCell (d : Draw) (px py : Nat) : Draw := (d.1.toggle px py, d.2 || d.1.cell px py)

/-- Columns `col` and up of one sprite row, `k` of them; bit 7 is column 0 (R201, R205). -/
def drawCols (bits : Byte) (x0 py : Nat) : Nat → Nat → Draw → Draw
  | 0, _, d => d
  | k + 1, col, d =>
    drawCols bits x0 py k (col + 1) (if bits.getLsbD (7 - col) then drawCell d (x0 + col) py else d)

/-- One sprite row of 8 columns (R201). -/
def drawRow (bits : Byte) (x0 py : Nat) (d : Draw) : Draw := drawCols bits x0 py 8 0 d

/-- The rows of a sprite, the first at row `y0` (R201). -/
def drawSprite (x0 : Nat) : List Byte → Nat → Draw → Draw
  | [], _, d => d
  | bits :: rest, y0, d => drawSprite x0 rest (y0 + 1) (drawRow bits x0 y0 d)

/-- The `n` sprite bytes at I, row 0 first (R201, R205). -/
def State.spriteBytes (s : State) (n : Nat) : List Byte :=
  (List.range n).map fun row => s.readByte (s.i.toNat + row)

/-! ### The parts of a cycle (40_cycle.md R110) -/

/-- The inputs of a cycle that State lists none for: free values (log 2). -/
def freeInput (n : Nat) : CycleInput :=
  ⟨Config.freeActiveKey n, Config.freeKeyDownEdge n, Config.freeTicks n, Config.freeRnd n⟩

/-- Sample the inputs of this `Step` call, once, at its start (R114). -/
def State.sampleInput (s : State) : State :=
  match s.pending with
  | inp :: rest => { s with input := inp, pending := rest }
  | []          => { s with input := freeInput s.freeCount, freeCount := s.freeCount + 1 }

/-- The start of every `Step` call: sample the inputs, lower the two per-cycle outputs (R110, first line). -/
def State.beginCycle (s : State) : State := { s.sampleInput with fbUpdated := false, diagValid := false }

/-- The word at `pc`: big-endian, each byte's address taken modulo 4096 (R112). -/
def State.fetchWord (s : State) : Word := joinBytes (s.readByte s.pc.toNat) (s.readByte (s.pc.toNat + 1))

/-- Fetch: `op` and the diagnostic outputs take the word and its address, `pc` advances by 2 (R110, R112, R113). -/
def State.fetch (s : State) : State :=
  { s with op := s.fetchWord, pc := s.pc + 2, diagValid := true, diagAddr := s.pc, diagOpcode := s.fetchWord }

/-- diag_recognized (R110). -/
def State.report (s : State) (recognized : Bool) : State := { s with diagRecognized := recognized }

/-- `execute(Unrecognized)` writes nothing (R116). -/
def execUnrecognized (s : State) : Host.Outcome State Fault Refusal := .next s

/-- A timer loses `ticks`, clamped at zero (R118). A timer at zero stays there whatever `ticks` is; that case stands
apart only so that it evaluates when `ticks` is a free value. -/
def timerAfter (t : Byte) (ticks : Nat) : Byte :=
  if t = 0 then 0 else trunc8 (t.toNat - min t.toNat ticks)

/-- The end of a cycle that was not fatal: both timers advance, `sound_on` follows (R118, R119). -/
def State.endCycle (s : State) : State :=
  let st := timerAfter s.st s.input.ticks
  { s with dt := timerAfter s.dt s.input.ticks, st := st, soundOn := st != 0 }

/-- After execute: a fatal cycle stops where it is, any other ends (R110, R117). -/
def settle : Host.Outcome State Fault Refusal → Host.Outcome State Fault Refusal
  | .next t    => .next (if t.halted then t else t.endCycle)
  | .fault r   => .fault r
  | .refused r => .refused r

/-- Place an instruction's bytes where the next step fetches: at `pc` and `pc + 1`, each modulo 4096; the core must be
running to fetch (log 10). -/
def State.placeWord (s : State) (bytes : List Byte) : State :=
  { s with halted := false }.storeBytes s.pc.toNat bytes

end Sys2Proof.Machine
end

