-- ==== Sys2Proof/Machine/Operands.lean ====
section
/-! DEFINITION. Every operand form of the instructions: the registers the configuration selects, the keypad predicate,
the addresses through I, and the values computed from one register. -/

namespace Sys2Proof.Machine

/-- The register 8XY6 and 8XYE shift: SHIFT_SOURCE (42_alu.md R158, R160). -/
def shiftOperand (x y : Reg) (s : State) : Byte :=
  match s.cfg.shiftSource with
  | .vx => s.reg x
  | .vy => s.reg y

/-- The offset of BNNN: JUMP_OFFSET_REG, X being bits 11..8 of NNN (41_control_flow.md R138). -/
def jumpOffset (nnn : Addr) (s : State) : Byte :=
  match s.cfg.jumpOffsetReg with
  | .v0 => s.reg 0
  | .vx => s.reg (nnn.extractLsb' 8 4).toFin

/-- pressed(v): the full 8-bit value is compared with the active key (45_keypad_timers.md R219). -/
def pressed (b : Byte) (s : State) : Bool :=
  match s.input.activeKey with
  | some k => trunc8 k.val == b
  | none   => false

/-- The key FX0A completes with: the active key in a cycle that shows a key-down edge (45_keypad_timers.md R223). -/
def keyDown (s : State) : Option Key := if s.input.keyDownEdge then s.input.activeKey else none

/-- The address of the glyph of a low nibble (43_index_memory.md R182). -/
def glyphAddr (b : Byte) : Word := trunc16 ((b.toNat % 16) * 5)

/-- The decimal digits of a byte, hundreds first (43_index_memory.md R183). -/
def bcdDigits (b : Byte) : List Byte := [trunc8 (b.toNat / 100), trunc8 (b.toNat / 10 % 10), trunc8 (b.toNat % 10)]

/-- V[0]..V[x], the bytes FX55 stores (43_index_memory.md R184). -/
def regBlock (x : Reg) (s : State) : List Byte := s.v.toList.take (x.val + 1)

/-- The registers after FX65: V[k] from I + k for k up to x, the others as they were (43_index_memory.md R185). -/
def loadedRegs (x : Reg) (s : State) : Vector Byte 16 :=
  Vector.ofFn fun k : Reg => if k ≤ x then s.readByte (s.i.toNat + k.val) else s.reg k

/-- The optional advance of I by X + 1 after FX55 and FX65: INDEX_ADVANCE (43_index_memory.md R184, R185). -/
def State.advanceIndex (s : State) (x : Reg) : State :=
  if s.cfg.indexAdvance then s.setI (trunc16 (s.i.toNat + x.val + 1)) else s

/-- The start column of a sprite: V[x] & 63 (44_display.md R201). -/
def spriteX (b : Byte) : Nat := (b &&& 63).toNat

/-- The start row of a sprite: V[y] & 31 (44_display.md R201). -/
def spriteY (b : Byte) : Nat := (b &&& 31).toNat

end Sys2Proof.Machine
end

