-- ==== Sys2Proof/Machine/Flags.lean ====
section
/-! DEFINITION. Every result that comes with a flag: the exact value is computed on numbers, narrowed to 8 bits, and the
flag is a comparison with the exact value (42_alu.md R156 to R160, R162; 43_index_memory.md R181). -/

namespace Sys2Proof.Machine

/-- a + b and its carry (R156). -/
def addCarry (a b : Byte) : Byte × Bool := (trunc8 (a.toNat + b.toNat), decide (a.toNat + b.toNat > 255))

/-- a - b and NOT borrow (R157). -/
def subNoBorrow (a b : Byte) : Byte × Bool := (trunc8 (a.toNat + 256 - b.toNat), decide (a.toNat ≥ b.toNat))

/-- One bit right, logical, and the bit shifted out (R158). -/
def shiftRight (b : Byte) : Byte × Bool := (b >>> 1, b.getLsbD 0)

/-- One bit left, truncated, and the bit shifted out (R160). -/
def shiftLeft (b : Byte) : Byte × Bool := (trunc8 (b.toNat <<< 1), b.getLsbD 7)

/-- VF after FX1E with the unbounded sum: set past 0x0FFF, else cleared under FX1E_VF_CLEAR, else unchanged (R181). -/
def State.setIndexFlag (s : State) (sum : Nat) : State :=
  if sum > 0x0FFF then s.setFlag true
  else if s.cfg.fx1eVfClear then s.setFlag false
  else s

end Sys2Proof.Machine
end

