-- ==== Sys2Proof/Machine/ControlFlow.lean ====
section
/-! DEFINITION. The control-flow instructions (41_control_flow.md). In every meaning `pc` already holds the address
after the instruction (40_cycle.md R113). -/

namespace Sys2Proof.Machine

/-- SYS, R130: ignored. -/
def execSys (_nnn : Addr) (s : State) : Host.Outcome State Fault Refusal := .next s

/-- RET, R131. -/
def execRet (s : State) : Host.Outcome State Fault Refusal :=
  s.conclude (s.pop.map fun r => r.2.setPc r.1)

/-- JP, R132. -/
def execJp (nnn : Addr) (s : State) : Host.Outcome State Fault Refusal := .next (s.setPc (zext16 nnn))

/-- CALL, R133: the return address is the advanced `pc`. -/
def execCall (nnn : Addr) (s : State) : Host.Outcome State Fault Refusal :=
  s.conclude ((s.push s.pc).map fun t => t.setPc (zext16 nnn))

/-- SE Vx, byte, R134. -/
def execSeImm (x : Reg) (nn : Byte) (s : State) : Host.Outcome State Fault Refusal :=
  .next (s.skipIf (s.reg x == nn))

/-- SNE Vx, byte, R135. -/
def execSneImm (x : Reg) (nn : Byte) (s : State) : Host.Outcome State Fault Refusal :=
  .next (s.skipIf (s.reg x != nn))

/-- SE Vx, Vy, R136. -/
def execSeReg (x y : Reg) (s : State) : Host.Outcome State Fault Refusal :=
  .next (s.skipIf (s.reg x == s.reg y))

/-- SNE Vx, Vy, R137. -/
def execSneReg (x y : Reg) (s : State) : Host.Outcome State Fault Refusal :=
  .next (s.skipIf (s.reg x != s.reg y))

/-- JP V0, addr, R138: the full sum, which may pass 0xFFF. -/
def execJpV0 (nnn : Addr) (s : State) : Host.Outcome State Fault Refusal :=
  .next (s.setPc (trunc16 (nnn.toNat + (jumpOffset nnn s).toNat)))

end Sys2Proof.Machine
end

