-- ==== Sys2Proof/Machine/Display.lean ====
section
/-! DEFINITION. The display instructions (44_display.md). -/

namespace Sys2Proof.Machine

/-- CLS, R200. -/
def execCls (s : State) : Host.Outcome State Fault Refusal := .next (s.setFb Framebuffer.blank)

/-- DRW Vx, Vy, nibble, R201: the coordinates are read before VF is cleared (the spec's decision D11), and VF ends as
the collision flag. -/
def execDrw (x y : Reg) (n : BitVec 4) (s : State) : Host.Outcome State Fault Refusal :=
  let d := drawSprite (spriteX (s.reg x)) (s.spriteBytes n.toNat) (spriteY (s.reg y)) (s.fb, false)
  .next ((s.setFb d.1).setFlag d.2)

end Sys2Proof.Machine
end

