-- ==== Sys2Proof/Machine/Index.lean ====
section
/-! DEFINITION. The index-register and memory instructions (43_index_memory.md). -/

namespace Sys2Proof.Machine

/-- LD I, addr, R180. -/
def execLdI (nnn : Addr) (s : State) : Host.Outcome State Fault Refusal := .next (s.setI (zext16 nnn))

/-- ADD I, Vx, R181: the 16-bit sum (the spec's decision D4), VF by the unbounded sum. -/
def execAddI (x : Reg) (s : State) : Host.Outcome State Fault Refusal :=
  let sum := s.i.toNat + (s.reg x).toNat
  .next ((s.setI (trunc16 sum)).setIndexFlag sum)

/-- LD F, Vx, R182. -/
def execLdF (x : Reg) (s : State) : Host.Outcome State Fault Refusal := .next (s.setI (glyphAddr (s.reg x)))

/-- LD B, Vx, R183. -/
def execLdB (x : Reg) (s : State) : Host.Outcome State Fault Refusal :=
  .next (s.storeBytes s.i.toNat (bcdDigits (s.reg x)))

/-- LD [I], Vx, R184. -/
def execLdMemX (x : Reg) (s : State) : Host.Outcome State Fault Refusal :=
  .next ((s.storeBytes s.i.toNat (regBlock x s)).advanceIndex x)

/-- LD Vx, [I], R185. -/
def execLdXMem (x : Reg) (s : State) : Host.Outcome State Fault Refusal :=
  .next ((s.setRegs (loadedRegs x s)).advanceIndex x)

end Sys2Proof.Machine
end

