-- ==== Sys2Proof/Machine/Keypad.lean ====
section
/-! DEFINITION. The keypad and timer instructions (45_keypad_timers.md). -/

namespace Sys2Proof.Machine

/-- SKP Vx, R220. -/
def execSkp (x : Reg) (s : State) : Host.Outcome State Fault Refusal := .next (s.skipIf (pressed (s.reg x) s))

/-- SKNP Vx, R221. -/
def execSknp (x : Reg) (s : State) : Host.Outcome State Fault Refusal := .next (s.skipIf (!pressed (s.reg x) s))

/-- LD Vx, DT, R222. -/
def execLdXDt (x : Reg) (s : State) : Host.Outcome State Fault Refusal := .next (s.setReg x s.dt)

/-- LD Vx, K, R223: without a key-down event `pc` goes back to the instruction itself. -/
def execLdXK (x : Reg) (s : State) : Host.Outcome State Fault Refusal :=
  .next (match keyDown s with
    | some k => s.setReg x (trunc8 k.val)
    | none   => s.setPc (s.pc - 2))

/-- LD DT, Vx, R224. -/
def execLdDtX (x : Reg) (s : State) : Host.Outcome State Fault Refusal := .next (s.setDt (s.reg x))

/-- LD ST, Vx, R225. -/
def execLdStX (x : Reg) (s : State) : Host.Outcome State Fault Refusal := .next (s.setSt (s.reg x))

end Sys2Proof.Machine
end

