-- ==== Sys2Proof/Machine/Step.lean ====
section
/-! DEFINITION. One cycle of the core (40_cycle.md R110), and where it fetches. -/

namespace Sys2Proof.Machine

/-- `Step` of R110 with the inputs State lists: begin the cycle; a halted core stops there (R111); else fetch, decode,
execute (or the reported no-op of R116), and settle. -/
def step (s : State) : Host.Outcome State Fault Refusal :=
  if s.halted then .next s.beginCycle
  else
    match decodeWord s.cfg s.beginCycle.fetchWord with
    | .ok i    => settle (exec i (s.beginCycle.fetch.report true))
    | .error _ => settle (execUnrecognized (s.beginCycle.fetch.report false))

/-- The state with a table row's instruction where the next step fetches (log 10). -/
def State.withFetchWord (s : State) (nbits w : Nat) : State := s.placeWord (tableBytes nbits w)

end Sys2Proof.Machine
end

