-- ==== Sys2Proof/Machine/HostOps.lean ====
section
/-! DEFINITION. The host's operations between cycles (10_state.md R41): Load, Step with its inputs, and the outputs.
Reset is `State.hostReset`. -/

namespace Sys2Proof.Machine

/-- Load(buf): a buffer over PROGRAM_MAX bytes is rejected whole, any other is placed at 0x200 (20_memory.md R68). -/
def State.load (s : State) (buf : List Byte) : LoadResult × State :=
  if buf.length > programMax then (.loadFailed, s) else (.loadOk, s.storeBytes programBase buf)

/-- The host presents the inputs of the next Step call (10_state.md R33, R34). -/
def State.offer (s : State) (inp : CycleInput) : State := { s with pending := inp :: s.pending }

/-- `Step(active_key, key_down_edge, ticks, rnd)` as the host calls it (40_cycle.md R110). -/
def hostStep (inp : CycleInput) (s : State) : Host.Outcome State Fault Refusal := step (s.offer inp)

/-- The numeric fault_kind output (60_exceptions.md R240, the spec's decision D18). -/
def faultCode : Option FatalKind → Nat
  | none                 => 0
  | some .stackOverflow  => 1
  | some .stackUnderflow => 2

end Sys2Proof.Machine
end

