-- ==== Sys2Proof/Safety.lean ====
section
/-! DEFINITION. The terms the statements use: the state invariant, which instruction may write what, the bytes a store
reaches, a sprite bit, and the agreements between two states. -/

namespace Sys2Proof.Machine

/-! ### The invariant -/

/-- What a halted core's fault record says is true of the core: the instruction at `addr` was fetched last, it is the
one that raises the kind, and the stack is where that kind is raised (40_cycle.md R117, 60_exceptions.md R242). -/
def State.faultTrue (s : State) : Prop :=
  s.pc = s.fault.addr + 2 ∧ s.op = s.fault.opcode ∧
  match s.fault.kind with
  | some .stackOverflow  => s.sp.val = stackDepth ∧ ∃ nnn, decodeWord s.cfg s.op = .ok (.call nnn)
  | some .stackUnderflow => s.sp.val = 0 ∧ decodeWord s.cfg s.op = .ok .ret
  | none                 => False

/-- The diagnostic outputs describe the last fetched word (10_state.md R40). -/
def State.diagTrue (s : State) : Prop :=
  s.diagOpcode = s.op ∧ (s.diagRecognized = true ↔ ∃ i, decodeWord s.cfg s.op = .ok i)

/-- The invariant of a cycle: memory is in canonical form, `sound_on` follows ST, a fault is recorded exactly when the
core is halted and the record is then true, and valid diagnostic outputs are true. -/
structure State.Inv (s : State) : Prop where
  memCanonical  : s.mem.wf s.cfg.font = true
  soundFollows  : s.soundOn = (s.st != 0)
  haltedIff     : s.halted = true ↔ s.fault.kind ≠ none
  faultIsTrue   : s.halted = true → s.faultTrue
  diagIsTrue    : s.diagValid = true → s.diagTrue

/-! ### Who may write what -/

/-- The general registers an instruction may write (10_state.md R22, R23). -/
def mayWriteReg (i : Instr) (r : Reg) : Prop :=
  match i with
  | .ldImm x _ | .addImm x _ | .ldReg x _ | .or x _ | .and x _ | .xor x _ | .rnd x _ | .ldXDt x | .ldXK x => r = x
  | .addReg x _ | .sub x _ | .shr x _ | .subn x _ | .shl x _ => r = x ∨ r = vf
  | .drw _ _ _ | .addI _ => r = vf
  | .ldXMem x => r ≤ x
  | .sys _ | .cls | .ret | .jp _ | .call _ | .seImm _ _ | .sneImm _ _ | .seReg _ _ | .sneReg _ _ | .ldI _ | .jpV0 _
  | .skp _ | .sknp _ | .ldDtX _ | .ldStX _ | .ldF _ | .ldB _ | .ldMemX _ => False

/-- The instruction writes `pc` after the fetch advance (10_state.md R24): the jumps, CALL, RET, the conditional skips,
and FX0A while it waits (45_keypad_timers.md R223). -/
def mayWritePc : Instr → Prop
  | .ret | .jp _ | .call _ | .seImm _ _ | .sneImm _ _ | .seReg _ _ | .sneReg _ _ | .jpV0 _ | .skp _ | .sknp _
  | .ldXK _ => True
  | .sys _ | .cls | .ldImm _ _ | .addImm _ _ | .ldReg _ _ | .or _ _ | .and _ _ | .xor _ _ | .addReg _ _ | .sub _ _
  | .shr _ _ | .subn _ _ | .shl _ _ | .ldI _ | .rnd _ _ | .drw _ _ _ | .ldXDt _ | .ldDtX _ | .ldStX _ | .addI _
  | .ldF _ | .ldB _ | .ldMemX _ | .ldXMem _ => False

/-- How many bytes an instruction stores from I upwards (20_memory.md R58). -/
def storedCount : Instr → Nat
  | .ldB _    => 3
  | .ldMemX x => x.val + 1
  | .sys _ | .cls | .ret | .jp _ | .call _ | .seImm _ _ | .sneImm _ _ | .seReg _ _ | .ldImm _ _ | .addImm _ _
  | .ldReg _ _ | .or _ _ | .and _ _ | .xor _ _ | .addReg _ _ | .sub _ _ | .shr _ _ | .subn _ _ | .shl _ _ | .sneReg _ _
  | .ldI _ | .jpV0 _ | .rnd _ _ | .drw _ _ _ | .skp _ | .sknp _ | .ldXDt _ | .ldXK _ | .ldDtX _ | .ldStX _ | .addI _
  | .ldF _ | .ldXMem _ => 0

/-- `a` is one of the `n` addresses from `base`, all modulo 4096. -/
def inBlock (base n a : Nat) : Prop := ∃ k, k < n ∧ a % memSize = (base + k) % memSize

/-- The instruction writes I (10_state.md R26); FX55 and FX65 do under INDEX_ADVANCE. -/
def mayWriteIndex (cfg : Config) (i : Instr) : Prop :=
  match i with
  | .ldI _ | .addI _ | .ldF _ => True
  | .ldMemX _ | .ldXMem _     => cfg.indexAdvance = true
  | .sys _ | .cls | .ret | .jp _ | .call _ | .seImm _ _ | .sneImm _ _ | .seReg _ _ | .ldImm _ _ | .addImm _ _
  | .ldReg _ _ | .or _ _ | .and _ _ | .xor _ _ | .addReg _ _ | .sub _ _ | .shr _ _ | .subn _ _ | .shl _ _ | .sneReg _ _
  | .jpV0 _ | .rnd _ _ | .drw _ _ _ | .skp _ | .sknp _ | .ldXDt _ | .ldXK _ | .ldDtX _ | .ldStX _ | .ldB _ => False

/-! ### Sprites -/

/-- The cell (cx, cy) is under a set bit of the `n`-row sprite at I drawn with its corner at (x0, y0)
(44_display.md R201, R205). -/
def spriteCovers (s : State) (x0 y0 n cx cy : Nat) : Prop :=
  x0 ≤ cx ∧ cx < x0 + 8 ∧ y0 ≤ cy ∧ cy < y0 + n ∧
  (s.readByte (s.i.toNat + (cy - y0))).getLsbD (7 - (cx - x0)) = true

/-! ### Agreements between two states -/

/-- The result of a step, with a function applied to its next state. -/
def mapNext (f : State → State) : Host.Outcome State Fault Refusal → Host.Outcome State Fault Refusal
  | .next t    => .next (f t)
  | .fault r   => .fault r
  | .refused r => .refused r

/-- Two states that agree but for stack slots not in use (10_state.md R29, R39). -/
def agreeButStaleSlots (s t : State) : Prop :=
  t = { s with stack := t.stack } ∧ ∀ k, (h : k < stackDepth) → k < s.sp.val → t.stack[k] = s.stack[k]

/-- Idle at P: `pc` is P and the word there is the jump to P (40_cycle.md R123). -/
def idleAt (p : Addr) (s : State) : Prop := s.halted = false ∧ s.pc = zext16 p ∧ s.fetchWord = packNNN 0x1 p

end Sys2Proof.Machine
end

