-- ==== Sys2Proof/Certificates/Slice0/Obligations.lean ====
section
/-! DEFINITION. The statements for the provers, from the spec's numbered rules. In a statement about `exec` the state is
the one after the fetch, so `s.pc` is the address after the instruction (40_cycle.md R113). `t = { s with f := t.f }`
says that nothing but the field f differs: no other register, flag, memory byte, cell, output or input. -/

open Sys2Proof Sys2Proof.Machine

/-! ### The cycle -/

/-- A running step fetches the big-endian word at `pc`, each byte's address modulo 4096, holds it in `op`, advances `pc`
by 2, and runs `exec` of the decoded instruction (or the no-op of an unrecognised word) on exactly that state; `settle`
then ends the cycle unless it was fatal. Where addresses and `pc` wrap is the spec's own decisions D2 and D3, the
diagnostic outputs its decision D30. -/
def Obligations.StepRunsDecodedInstruction : Prop :=
  ∀ (s : State) (w : Word), s.halted = false →
    w = s.mem.read s.cfg.font (s.pc.toNat % 4096) ++ s.mem.read s.cfg.font ((s.pc.toNat + 1) % 4096) →
    (∀ i, decodeWord s.cfg w = .ok i →
      step s = settle (exec i { s.beginCycle with
        op := w, pc := s.pc + 2, diagValid := true, diagAddr := s.pc, diagOpcode := w, diagRecognized := true })) ∧
    (∀ e, decodeWord s.cfg w = .error e →
      step s = settle (.next { s.beginCycle with
        op := w, pc := s.pc + 2, diagValid := true, diagAddr := s.pc, diagOpcode := w, diagRecognized := false })) ∧
    (∀ t, settle (.next t) = .next (if t.halted = true then t else t.endCycle))

/-- An unrecognised word runs as a reported no-op: `pc` advances by 2, the diagnostic outputs report it, the timers lose
the cycle's ticks, nothing else of the machine changes. How time reaches the timers is the spec's own decision D16, the
diagnostic outputs its decision D30. -/
def Obligations.UnrecognizedWordIsReportedNoOp : Prop :=
  ∀ (s : State) (e : Reject), s.halted = false → decodeWord s.cfg s.fetchWord = .error e →
    ∃ t, step s = .next t ∧
      t.pc = s.pc + 2 ∧ t.op = s.fetchWord ∧
      t.diagValid = true ∧ t.diagAddr = s.pc ∧ t.diagOpcode = s.fetchWord ∧ t.diagRecognized = false ∧
      t.dt.toNat = s.dt.toNat - s.sampleInput.input.ticks ∧ t.st.toNat = s.st.toNat - s.sampleInput.input.ticks ∧
      t.fbUpdated = false ∧
      t = { s with
        pc := t.pc, op := t.op, dt := t.dt, st := t.st, fbUpdated := t.fbUpdated, soundOn := t.soundOn,
        diagValid := t.diagValid, diagAddr := t.diagAddr, diagOpcode := t.diagOpcode,
        diagRecognized := t.diagRecognized,
        input := t.input, pending := t.pending, freeCount := t.freeCount }

/-- A halted core changes nothing in a cycle but lower its two per-cycle outputs and take the host's inputs. The spec's
own decision D17. That diag_addr, diag_opcode and diag_recognized keep their values in such a cycle is the model's choice
(log 4), as is taking the inputs (log 2). -/
def Obligations.HaltedCoreIgnoresSteps : Prop :=
  ∀ s : State, s.halted = true →
    ∃ t, step s = .next t ∧
      t = { s with fbUpdated := false, diagValid := false,
                   input := t.input, pending := t.pending, freeCount := t.freeCount }

/-- A step that fetches CALL with a full stack, or RET with an empty one, halts: the record holds the kind, the
instruction's address and its word, `pc` keeps the fetch advance, the timers do not advance, and nothing else is
written. The spec's own decision D18; the diagnostic outputs are its decision D30. -/
def Obligations.FatalCycleRecordsFault : Prop :=
  ∀ (s : State) (i : Instr) (k : FatalKind), s.halted = false → decodeWord s.cfg s.fetchWord = .ok i →
    ((∃ nnn, i = .call nnn) ∧ s.sp.val = 16 ∧ k = .stackOverflow ∨ i = .ret ∧ s.sp.val = 0 ∧ k = .stackUnderflow) →
    ∃ t, step s = .next t ∧ t.halted = true ∧ t.fault = ⟨some k, s.pc, s.fetchWord⟩ ∧ t.pc = s.pc + 2 ∧
      t = { s with
        halted := t.halted, fault := t.fault, pc := t.pc, op := s.fetchWord, fbUpdated := false,
        diagValid := true, diagAddr := s.pc, diagOpcode := s.fetchWord, diagRecognized := true,
        input := t.input, pending := t.pending, freeCount := t.freeCount }

/-- After a step that did not halt, each timer is what it was, or what FX15 or FX18 wrote, less the cycle's ticks,
clamped at zero, and `sound_on` says whether ST is nonzero. How time reaches the timers is the spec's own decision
D16. -/
def Obligations.TimersLoseTicksAfterExecute : Prop :=
  ∀ s t : State, s.halted = false → step s = .next t → t.halted = false →
    (∀ x, decodeWord s.cfg s.fetchWord = .ok (.ldDtX x) →
      t.dt.toNat = (s.reg x).toNat - s.sampleInput.input.ticks) ∧
    ((∀ x, decodeWord s.cfg s.fetchWord ≠ .ok (.ldDtX x)) → t.dt.toNat = s.dt.toNat - s.sampleInput.input.ticks) ∧
    (∀ x, decodeWord s.cfg s.fetchWord = .ok (.ldStX x) →
      t.st.toNat = (s.reg x).toNat - s.sampleInput.input.ticks) ∧
    ((∀ x, decodeWord s.cfg s.fetchWord ≠ .ok (.ldStX x)) → t.st.toNat = s.st.toNat - s.sampleInput.input.ticks) ∧
    (t.soundOn = true ↔ t.st.toNat ≠ 0)

/-- Every step of every state answers a next state: nothing faults and nothing is refused. That addresses wrap and
sprites clip is the spec's own decision D2 and D10. -/
def Obligations.EveryStepAnswersNext : Prop := ∀ s : State, ∃ t, step s = .next t

/-- R115: every instruction answers a next state, and only CALL with a full stack and RET with an empty one make it a
fatal one. -/
def Obligations.OnlyCallAndRetCanBeFatal : Prop :=
  ∀ (i : Instr) (s : State), ∃ t, exec i s = .next t ∧
    (t.halted = s.halted ∧ t.fault = s.fault ∨
      t.halted = true ∧ (∃ nnn, i = .call nnn) ∧ s.sp.val = 16 ∧ t.fault.kind = some .stackOverflow ∨
      t.halted = true ∧ i = .ret ∧ s.sp.val = 0 ∧ t.fault.kind = some .stackUnderflow)

/-- A program idle at P stays so: every further step fetches the jump into `op` and leaves all else but the timers, and
the host's inputs and the outputs of the cycle, as it is. Idle is the spec's own convention, decision D34. -/
def Obligations.IdleProgramStaysIdle : Prop :=
  ∀ (p : Addr) (s : State), idleAt p s →
    ∃ t, step s = .next t ∧ idleAt p t ∧ t.op = packNNN 0x1 p ∧
      t = { s with
        dt := t.dt, st := t.st, op := t.op, fbUpdated := t.fbUpdated, soundOn := t.soundOn, diagValid := t.diagValid,
        diagAddr := t.diagAddr, diagOpcode := t.diagOpcode, diagRecognized := t.diagRecognized,
        input := t.input, pending := t.pending, freeCount := t.freeCount }

/-! ### Reset, load -/

/-- The state after Reset. The stack slots, the framebuffer, `op`, `halted` and the fault record are the spec's own
decision D19; the font bytes come from general knowledge (log 8); the diagnostic address, opcode and recognised bit
are the model's choice and not stated (log 4). -/
def Obligations.ResetStateHoldsResetValues : Prop :=
  (∀ r, State.reset.reg r = 0) ∧ State.reset.i = 0 ∧ State.reset.pc = 0x200 ∧ State.reset.sp.val = 0 ∧
  (∀ k, (h : k < 16) → State.reset.stack[k] = 0) ∧ State.reset.dt = 0 ∧ State.reset.st = 0 ∧
  (∀ a, (h : a < 80) → State.reset.readByte a = standardFont[a]) ∧
  (∀ a, 80 ≤ a → a < 4096 → State.reset.readByte a = 0) ∧
  (∀ x y, State.reset.fb.cell x y = false) ∧
  State.reset.op = 0 ∧ State.reset.halted = false ∧ State.reset.fault = ⟨none, 0, 0⟩ ∧
  State.reset.fbUpdated = false ∧ State.reset.diagValid = false ∧ State.reset.soundOn = false

/-- The host's Reset from any state, halted or not, gives the reset values again and keeps the configuration, the
font region holding its font. The spec's own decision D31, the values with its decision D19. It is the model's choice
that the host's inputs, `input`, `pending` and `freeCount`, stay as they are (log 3), and that the diagnostic address,
opcode and recognised bit become those of the reset state (log 4). -/
def Obligations.HostResetReconstructs : Prop :=
  ∀ s : State,
    s.hostReset = { State.reset with
      cfg := s.cfg, input := s.input, pending := s.pending, freeCount := s.freeCount } ∧
    (∀ a, (h : a < 80) → s.hostReset.readByte a = s.cfg.font[a]) ∧
    (∀ a, 80 ≤ a → a < 4096 → s.hostReset.readByte a = 0)

/-- Load of at most 3584 bytes puts them at 0x200 and on and changes nothing else; a longer buffer fails and writes
nothing. What a failed load writes is the spec's own decision D20. -/
def Obligations.LoadPlacesProgram : Prop :=
  ∀ (s : State) (buf : List Byte), s.mem.wf s.cfg.font = true →
    (buf.length ≤ 3584 → ∃ t, s.load buf = (.loadOk, t) ∧ t = { s with mem := t.mem } ∧
      (∀ k, (h : k < buf.length) → t.readByte (0x200 + k) = buf[k]) ∧
      (∀ a, a < 4096 → (a < 0x200 ∨ 0x200 + buf.length ≤ a) → t.readByte a = s.readByte a)) ∧
    (3584 < buf.length → s.load buf = (.loadFailed, s))

/-- After Reset, and after a Load that follows it, the first step fetches the word at 0x200 and 0x201, and reports it on
the diagnostic outputs, the spec's own decision D30. -/
def Obligations.FirstCycleFetchesAt0x200 : Prop :=
  ∀ (s u : State) (buf : List Byte), (u = s.hostReset ∨ s.hostReset.load buf = (.loadOk, u)) →
    ∃ t, step u = .next t ∧ t.diagValid = true ∧ t.diagAddr = 0x200 ∧
      t.diagOpcode = u.readByte 0x200 ++ u.readByte 0x201 ∧ t.op = t.diagOpcode

/-! ### Decode and encode -/

/-- Under every configuration, decoding the encoding of a well-formed instruction gives it back with every operand,
from the word and from its two bytes, whatever bytes follow. -/
def Obligations.DecodeInvertsEncode : Prop :=
  ∀ (cfg : Config) (i : Instr), i.wellFormed cfg = true →
    decodeWord cfg (encode i) = .ok i ∧
    ∀ rest, decode cfg (encodeBytes i ++ rest) = .ok (i, rest)

/-- A decoded word is well formed, and encoding it gives the word back but for the bits the decoder does not look at:
the low nibble of families 5 and 9, the second nibble of CLS and RET (nonzero only under FAMILY0_MATCH = low_byte). The
switches are the spec's own decisions D13 and D12, the opcode values PRESUMED (log 7, its decision D35). -/
def Obligations.EncodeRecoversDecodedWord : Prop :=
  ∀ (cfg : Config) (w : Word) (i : Instr), decodeWord cfg w = .ok i →
    i.wellFormed cfg = true ∧
    encode i = match i with
      | .seReg _ _ | .sneReg _ _ => w &&& 0xFFF0#16
      | .cls | .ret              => w &&& 0xF0FF#16
      | _                        => w

/-- The words that decode to no instruction, by number: those of R88, and under STRICT_5_9 the 5XYN and 9XYN words with
N not 0. The numbers are PRESUMED, the opcode values the spec supplies from general knowledge (log 7): its own decision
D35, with D12 for family 0, in which every word is an instruction, and D13 for the switch. -/
def Obligations.UnrecognizedWordsAreExactlyR88 : Prop :=
  ∀ (cfg : Config) (w : Word),
    (∃ e, decodeWord cfg w = .error e) ↔
      (w.toNat / 4096 = 8 ∧ w.toNat % 16 ∉ [0, 1, 2, 3, 4, 5, 6, 7, 14]) ∨
      (w.toNat / 4096 = 14 ∧ w.toNat % 256 ∉ [0x9E, 0xA1]) ∨
      (w.toNat / 4096 = 15 ∧ w.toNat % 256 ∉ [0x07, 0x0A, 0x15, 0x18, 0x1E, 0x29, 0x33, 0x55, 0x65]) ∨
      (cfg.strict59 = true ∧ (w.toNat / 4096 = 5 ∨ w.toNat / 4096 = 9) ∧ w.toNat % 16 ≠ 0)

/-- A sanity statement: some words written out from the spec's encodings (R83), and what they stand for. The opcode
values are PRESUMED (log 7, the spec's own decision D35, and D12 for 0NNN). -/
def Obligations.WrittenWordsDecode : Prop :=
  decodeWord .spec 0x0000 = .ok (.sys 0x000) ∧ decodeWord .spec 0x00E0 = .ok .cls ∧
  decodeWord .spec 0x00EE = .ok .ret ∧ decodeWord .spec 0x812E = .ok (.shl 1 2) ∧
  decodeWord .spec 0xD125 = .ok (.drw 1 2 5) ∧ decodeWord .spec 0xE19E = .ok (.skp 1) ∧
  decodeWord .spec 0xF165 = .ok (.ldXMem 1) ∧ decodeWord .spec 0x8128 = .error (.family8 0x8128)

/-! ### Control flow -/

/-- SYS is a no-op. That 0NNN is SYS is the spec's own decision D12. -/
def Obligations.SysChangesNothing : Prop := ∀ (nnn : Addr) (s : State), exec (.sys nnn) s = .next s

/-- R132: `pc` is the zero-extended address, nothing else changes. -/
def Obligations.JpSetsPc : Prop :=
  ∀ (nnn : Addr) (s : State), exec (.jp nnn) s = .next { s with pc := BitVec.ofNat 16 nnn.toNat }

/-- CALL pushes the address after it and jumps; with all 16 slots in use it is fatal and writes nothing but the fault.
The fault record is the spec's own decision D18, the slot convention D27. -/
def Obligations.CallPushesReturnAddress : Prop :=
  ∀ (nnn : Addr) (s : State),
    (∀ h : s.sp.val < 16, ∃ t, exec (.call nnn) s = .next t ∧
      t.pc = BitVec.ofNat 16 nnn.toNat ∧ t.sp.val = s.sp.val + 1 ∧ t.stack[s.sp.val] = s.pc ∧
      (∀ k, (hk : k < 16) → k ≠ s.sp.val → t.stack[k] = s.stack[k]) ∧
      t = { s with pc := t.pc, sp := t.sp, stack := t.stack }) ∧
    (s.sp.val = 16 →
      exec (.call nnn) s = .next { s with halted := true, fault := ⟨some .stackOverflow, s.pc - 2, s.op⟩ })

/-- RET takes the last pushed address off the stack into `pc`; with no entry it is fatal and writes nothing but the
fault. The fault record is the spec's own decision D18, the slot convention D27. -/
def Obligations.RetPopsReturnAddress : Prop :=
  ∀ s : State,
    (∀ h : 0 < s.sp.val, ∃ t, exec .ret s = .next t ∧
      t.pc = s.stack[s.sp.val - 1] ∧ t.sp.val + 1 = s.sp.val ∧ t = { s with pc := t.pc, sp := t.sp }) ∧
    (s.sp.val = 0 →
      exec .ret s = .next { s with halted := true, fault := ⟨some .stackUnderflow, s.pc - 2, s.op⟩ })

/-- A RET in any state whose stack is as the CALL left it goes to the address after the CALL, with SP as before. -/
def Obligations.RetReturnsAfterCall : Prop :=
  ∀ (nnn : Addr) (s : State), s.sp.val < 16 →
    ∃ t, exec (.call nnn) s = .next t ∧ t.halted = s.halted ∧
      ∀ u : State, u.sp = t.sp → u.stack = t.stack →
        exec .ret u = .next { u with pc := s.pc, sp := s.sp }

/-- R134, R135: the skips on a register and a byte move `pc` by 2 more when the condition holds, and change nothing
else. -/
def Obligations.ImmediateSkipsMovePc : Prop :=
  ∀ (x : Reg) (nn : Byte) (s : State),
    exec (.seImm x nn) s = .next { s with pc := if s.reg x = nn then s.pc + 2 else s.pc } ∧
    exec (.sneImm x nn) s = .next { s with pc := if s.reg x ≠ nn then s.pc + 2 else s.pc }

/-- The skips on two registers; with X = Y the first always skips and the second never does. What N does in the
encoding is the spec's own decision D13 and no part of this. -/
def Obligations.RegisterSkipsMovePc : Prop :=
  ∀ (x y : Reg) (s : State),
    exec (.seReg x y) s = .next { s with pc := if s.reg x = s.reg y then s.pc + 2 else s.pc } ∧
    exec (.sneReg x y) s = .next { s with pc := if s.reg x ≠ s.reg y then s.pc + 2 else s.pc }

/-- The skips on the keypad compare the whole register with the active key: no key, or a value of 16 or more, never
matches. The width of the comparison is the spec's own decision D15. -/
def Obligations.KeySkipsMovePc : Prop :=
  ∀ (x : Reg) (s : State),
    (∀ k : Key, s.input.activeKey = some k → (s.reg x).toNat = k.val →
      exec (.skp x) s = .next { s with pc := s.pc + 2 } ∧ exec (.sknp x) s = .next s) ∧
    ((∀ k : Key, s.input.activeKey = some k → (s.reg x).toNat ≠ k.val) →
      exec (.skp x) s = .next s ∧ exec (.sknp x) s = .next { s with pc := s.pc + 2 })

/-- The jump with offset: NNN plus V0, or plus the register of NNN's high nibble under JUMP_OFFSET_REG = VX, the full
sum. The register and the width are the spec's own decisions D8 and D3. -/
def Obligations.OffsetJumpSetsPc : Prop :=
  ∀ (nnn : Addr) (s : State), ∃ t, exec (.jpV0 nnn) s = .next t ∧ t = { s with pc := t.pc } ∧
    (s.cfg.jumpOffsetReg = .v0 → t.pc.toNat = nnn.toNat + (s.reg 0).toNat) ∧
    (s.cfg.jumpOffsetReg = .vx → ∀ x : Reg, x.val = nnn.toNat / 256 → t.pc.toNat = nnn.toNat + (s.reg x).toNat)

/-! ### Registers and ALU -/

/-- R150, R152: the moves into V[x] from a byte and from V[y]; VF is written only as the destination. -/
def Obligations.MovesWriteDestination : Prop :=
  ∀ (x y : Reg) (nn : Byte) (s : State),
    (∃ t, exec (.ldImm x nn) s = .next t ∧ t = { s with v := t.v } ∧
      ∀ r, t.reg r = if r = x then nn else s.reg r) ∧
    (∃ t, exec (.ldReg x y) s = .next t ∧ t = { s with v := t.v } ∧
      ∀ r, t.reg r = if r = x then s.reg y else s.reg r)

/-- R151: V[x] + NN modulo 256, no flag: every other register, VF among them, is unchanged. -/
def Obligations.AddImmediateWrapsWithoutFlag : Prop :=
  ∀ (x : Reg) (nn : Byte) (s : State), ∃ t, exec (.addImm x nn) s = .next t ∧ t = { s with v := t.v } ∧
    (t.reg x).toNat = ((s.reg x).toNat + nn.toNat) % 256 ∧ ∀ r, r ≠ x → t.reg r = s.reg r

/-- R153, R154, R155: the bitwise operations, no flag. -/
def Obligations.LogicWritesDestinationOnly : Prop :=
  ∀ (x y : Reg) (s : State),
    (∃ t, exec (.or x y) s = .next t ∧ t = { s with v := t.v } ∧
      ∀ r, t.reg r = if r = x then s.reg x ||| s.reg y else s.reg r) ∧
    (∃ t, exec (.and x y) s = .next t ∧ t = { s with v := t.v } ∧
      ∀ r, t.reg r = if r = x then s.reg x &&& s.reg y else s.reg r) ∧
    (∃ t, exec (.xor x y) s = .next t ∧ t = { s with v := t.v } ∧
      ∀ r, t.reg r = if r = x then s.reg x ^^^ s.reg y else s.reg r)

/-- ADD: the sum modulo 256 in V[x] and the carry in VF. With X = F the carry is VF's final value: the spec's own
decision D9. -/
def Obligations.AddRegisterSetsCarry : Prop :=
  ∀ (x y : Reg) (s : State), ∃ t, exec (.addReg x y) s = .next t ∧ t = { s with v := t.v } ∧
    (t.reg vf = if (s.reg x).toNat + (s.reg y).toNat > 255 then 1 else 0) ∧
    (x ≠ vf → (t.reg x).toNat = ((s.reg x).toNat + (s.reg y).toNat) % 256) ∧
    ∀ r, r ≠ x → r ≠ vf → t.reg r = s.reg r

/-- SUB and SUBN: the difference modulo 256 in V[x] and NOT borrow in VF, equality being no borrow. With X = F the flag
is VF's final value: the spec's own decision D9. -/
def Obligations.SubtractionsSetNoBorrow : Prop :=
  ∀ (x y : Reg) (s : State),
    (∃ t, exec (.sub x y) s = .next t ∧ t = { s with v := t.v } ∧
      (t.reg vf = if (s.reg y).toNat ≤ (s.reg x).toNat then 1 else 0) ∧
      (x ≠ vf → t.reg x = s.reg x - s.reg y) ∧
      ∀ r, r ≠ x → r ≠ vf → t.reg r = s.reg r) ∧
    (∃ t, exec (.subn x y) s = .next t ∧ t = { s with v := t.v } ∧
      (t.reg vf = if (s.reg x).toNat ≤ (s.reg y).toNat then 1 else 0) ∧
      (x ≠ vf → t.reg x = s.reg y - s.reg x) ∧
      ∀ r, r ≠ x → r ≠ vf → t.reg r = s.reg r)

/-- SHR and SHL: the source, V[x] or under SHIFT_SOURCE = VY V[y], moved by one bit into V[x], the bit shifted out in VF.
The switch is the spec's own decision D7, the flag's priority with X = F its decision D9. -/
def Obligations.ShiftsSetShiftedOutBit : Prop :=
  ∀ (x y : Reg) (s : State) (b : Byte),
    (s.cfg.shiftSource = .vx ∧ b = s.reg x ∨ s.cfg.shiftSource = .vy ∧ b = s.reg y) →
    (∃ t, exec (.shr x y) s = .next t ∧ t = { s with v := t.v } ∧
      (t.reg vf = if b.toNat % 2 = 1 then 1 else 0) ∧
      (x ≠ vf → (t.reg x).toNat = b.toNat / 2) ∧
      ∀ r, r ≠ x → r ≠ vf → t.reg r = s.reg r) ∧
    (∃ t, exec (.shl x y) s = .next t ∧ t = { s with v := t.v } ∧
      (t.reg vf = if 128 ≤ b.toNat then 1 else 0) ∧
      (x ≠ vf → (t.reg x).toNat = b.toNat * 2 % 256) ∧
      ∀ r, r ≠ x → r ≠ vf → t.reg r = s.reg r)

/-- RND: the cycle's random byte AND NN. That the byte is a free input is the spec's own decision D25. -/
def Obligations.RndMasksRandomByte : Prop :=
  ∀ (x : Reg) (nn : Byte) (s : State), ∃ t, exec (.rnd x nn) s = .next t ∧ t = { s with v := t.v } ∧
    ∀ r, t.reg r = if r = x then s.input.rnd &&& nn else s.reg r

/-! ### Index and memory -/

/-- R180, R182: I is the zero-extended address, or five times the low nibble of V[x]. -/
def Obligations.IndexLoadsSetIndex : Prop :=
  ∀ (x : Reg) (nnn : Addr) (s : State),
    exec (.ldI nnn) s = .next { s with i := BitVec.ofNat 16 nnn.toNat } ∧
    ∃ t, exec (.ldF x) s = .next t ∧ t = { s with i := t.i } ∧ t.i.toNat = (s.reg x).toNat % 16 * 5

/-- ADD I: the 16-bit sum in I; VF is 1 past 0x0FFF, else 0 under FX1E_VF_CLEAR and unchanged without it. I after an
overflow and VF without one are the spec's own decisions D4 and D5. -/
def Obligations.AddIndexSetsOverflowFlag : Prop :=
  ∀ (x : Reg) (s : State) (sum : Nat), sum = s.i.toNat + (s.reg x).toNat →
    ∃ t, exec (.addI x) s = .next t ∧ t = { s with i := t.i, v := t.v } ∧
      t.i.toNat = sum % 65536 ∧
      (0x0FFF < sum → t.reg vf = 1) ∧
      (sum ≤ 0x0FFF → s.cfg.fx1eVfClear = true → t.reg vf = 0) ∧
      (sum ≤ 0x0FFF → s.cfg.fx1eVfClear = false → t.reg vf = s.reg vf) ∧
      ∀ r, r ≠ vf → t.reg r = s.reg r

/-- LD B: the hundreds, tens and ones digits of V[x] at I, I + 1 and I + 2, modulo 4096; every other byte of memory and
I itself unchanged. That addresses wrap is the spec's own decision D2. -/
def Obligations.BcdStoresThreeDigits : Prop :=
  ∀ (x : Reg) (s : State), s.mem.wf s.cfg.font = true →
    ∃ t, exec (.ldB x) s = .next t ∧ t = { s with mem := t.mem } ∧
      (t.readByte s.i.toNat).toNat = (s.reg x).toNat / 100 ∧
      (t.readByte (s.i.toNat + 1)).toNat = (s.reg x).toNat / 10 % 10 ∧
      (t.readByte (s.i.toNat + 2)).toNat = (s.reg x).toNat % 10 ∧
      ∀ a, ¬ inBlock s.i.toNat 3 a → t.readByte a = s.readByte a

/-- The three stored digits are decimal digits and make up V[x] again. -/
def Obligations.BcdDigitsRecomposeValue : Prop :=
  ∀ (x : Reg) (s t : State), s.mem.wf s.cfg.font = true → exec (.ldB x) s = .next t →
    (t.readByte s.i.toNat).toNat ≤ 2 ∧ (t.readByte (s.i.toNat + 1)).toNat ≤ 9 ∧
    (t.readByte (s.i.toNat + 2)).toNat ≤ 9 ∧
    100 * (t.readByte s.i.toNat).toNat + 10 * (t.readByte (s.i.toNat + 1)).toNat
      + (t.readByte (s.i.toNat + 2)).toNat = (t.reg x).toNat

/-- LD [I], Vx: V[k] at I + k for k = 0 to x, modulo 4096, every other byte unchanged; I advances by x + 1 only under
INDEX_ADVANCE. The switch and the wrap are the spec's own decisions D6 and D2. -/
def Obligations.StoreRegistersWritesBlock : Prop :=
  ∀ (x : Reg) (s : State), s.mem.wf s.cfg.font = true →
    ∃ t, exec (.ldMemX x) s = .next t ∧ t = { s with mem := t.mem, i := t.i } ∧
      (∀ k : Reg, k ≤ x → t.readByte (s.i.toNat + k.val) = s.reg k) ∧
      (∀ a, ¬ inBlock s.i.toNat (x.val + 1) a → t.readByte a = s.readByte a) ∧
      t.i.toNat = if s.cfg.indexAdvance = true then (s.i.toNat + x.val + 1) % 65536 else s.i.toNat

/-- LD Vx, [I]: V[k] from I + k for k = 0 to x, modulo 4096, the other registers unchanged; I advances by x + 1 only
under INDEX_ADVANCE. The switch and the wrap are the spec's own decisions D6 and D2. -/
def Obligations.LoadRegistersReadsBlock : Prop :=
  ∀ (x : Reg) (s : State), ∃ t, exec (.ldXMem x) s = .next t ∧ t = { s with v := t.v, i := t.i } ∧
    (∀ k : Reg, t.reg k =
      if k ≤ x then s.mem.read s.cfg.font ((s.i.toNat + k.val) % 4096) else s.reg k) ∧
    t.i.toNat = if s.cfg.indexAdvance = true then (s.i.toNat + x.val + 1) % 65536 else s.i.toNat

/-- Storing V0 to Vx and loading them back, through the same I and from the same memory, restores them, whatever the
registers held in between. -/
def Obligations.LoadRegistersInvertsStore : Prop :=
  ∀ (x : Reg) (s t u w : State), s.mem.wf s.cfg.font = true → exec (.ldMemX x) s = .next t →
    u.mem = t.mem → u.cfg = s.cfg → u.i = s.i → exec (.ldXMem x) u = .next w →
    ∀ k : Reg, k ≤ x → w.reg k = s.reg k

/-! ### Display -/

/-- R200: every cell is off, `fb_updated` is set, nothing else changes. -/
def Obligations.ClearScreenTurnsEveryCellOff : Prop :=
  ∀ s : State, ∃ t, exec .cls s = .next t ∧ t = { s with fb := t.fb, fbUpdated := true } ∧
    ∀ x y, t.fb.cell x y = false

/-- DRW: a cell of the grid is toggled exactly when a set sprite bit lies on it, the corner being V[x] mod 64 and V[y]
mod 32 read before VF is cleared; VF is 1 exactly when a toggled cell was on; nothing else changes. Clipping and the
order of reading are the spec's own decisions D10 and D11. -/
def Obligations.DrawTogglesCoveredCells : Prop :=
  ∀ (x y : Reg) (n : BitVec 4) (s : State) (x0 y0 : Nat),
    x0 = (s.reg x).toNat % 64 → y0 = (s.reg y).toNat % 32 →
    ∃ t, exec (.drw x y n) s = .next t ∧ t = { s with fb := t.fb, fbUpdated := true, v := t.v } ∧
      (∀ cx cy, cx < 64 → cy < 32 → spriteCovers s x0 y0 n.toNat cx cy → t.fb.cell cx cy = !s.fb.cell cx cy) ∧
      (∀ cx cy, cx < 64 → cy < 32 → ¬ spriteCovers s x0 y0 n.toNat cx cy → t.fb.cell cx cy = s.fb.cell cx cy) ∧
      ((∃ cx cy, cx < 64 ∧ cy < 32 ∧ spriteCovers s x0 y0 n.toNat cx cy ∧ s.fb.cell cx cy = true) → t.reg vf = 1) ∧
      (¬ (∃ cx cy, cx < 64 ∧ cy < 32 ∧ spriteCovers s x0 y0 n.toNat cx cy ∧ s.fb.cell cx cy = true) →
        t.reg vf = 0) ∧
      ∀ r, r ≠ vf → t.reg r = s.reg r

/-- After DRW, VF is 1 exactly when the draw turned a cell off, else 0. -/
def Obligations.CollisionMeansCellTurnedOff : Prop :=
  ∀ (x y : Reg) (n : BitVec 4) (s t : State), exec (.drw x y n) s = .next t →
    (t.reg vf = 1 ∨ t.reg vf = 0) ∧
    (t.reg vf = 1 ↔ ∃ cx cy, cx < 64 ∧ cy < 32 ∧ s.fb.cell cx cy = true ∧ t.fb.cell cx cy = false)

/-- Drawing the same sprite twice, with neither coordinate in VF, restores the framebuffer exactly. The second draw
collides exactly when some covered cell was off at the start; so, when the first draw did not collide, exactly when some
set sprite bit lies in the grid. The flag clauses are what R201 gives and not R203's sentence, which claims the last one
of every screen: a reading of the model's own, DEDUCED (log 11). Clipping and the order of reading are the spec's own
decisions D10 and D11. -/
def Obligations.DrawingTwiceRestoresFramebuffer : Prop :=
  ∀ (x y : Reg) (n : BitVec 4) (s t u : State) (x0 y0 : Nat), x ≠ vf → y ≠ vf →
    x0 = (s.reg x).toNat % 64 → y0 = (s.reg y).toNat % 32 →
    exec (.drw x y n) s = .next t → exec (.drw x y n) t = .next u →
    u.fb = s.fb ∧
    (u.reg vf = 1 ↔ ∃ cx cy, cx < 64 ∧ cy < 32 ∧ spriteCovers s x0 y0 n.toNat cx cy ∧ s.fb.cell cx cy = false) ∧
    (t.reg vf = 0 → (u.reg vf = 1 ↔ ∃ cx cy, cx < 64 ∧ cy < 32 ∧ spriteCovers s x0 y0 n.toNat cx cy))

/-- What R203 says of the second draw's flag from EVERY screen. It does not follow from R201 and is expected to fail: a
sprite of one set bit drawn on a cell that is on turns it off and then on again, and the second draw does not collide
(log 11). -/
def Obligations.SecondDrawCollidesFromEveryScreen : Prop :=
  ∀ (x y : Reg) (n : BitVec 4) (s t u : State), x ≠ vf → y ≠ vf →
    exec (.drw x y n) s = .next t → exec (.drw x y n) t = .next u →
    (u.reg vf = 1 ↔ ∃ cx cy, cx < 64 ∧ cy < 32 ∧
      spriteCovers s ((s.reg x).toNat % 64) ((s.reg y).toNat % 32) n.toNat cx cy)

/-- `fb_updated` is set exactly in a running cycle whose instruction is CLS or DRW, and in any other cycle the
framebuffer is unchanged. The output and that it is false in every other running cycle are the spec's own decision D29,
that it is false while halted its decision D17 (log 9). -/
def Obligations.OnlyDisplayInstructionsWriteFramebuffer : Prop :=
  ∀ s t : State, step s = .next t →
    (t.fbUpdated = true ↔ s.halted = false ∧
      (decodeWord s.cfg s.fetchWord = .ok .cls ∨ ∃ x y n, decodeWord s.cfg s.fetchWord = .ok (.drw x y n))) ∧
    (t.fbUpdated = false → t.fb = s.fb)

/-! ### Keypad and timers -/

/-- The transfers between a register and a timer, nothing else changed; the end of the same cycle then takes its ticks
from what FX15 and FX18 wrote. How time reaches the timers is the spec's own decision D16. -/
def Obligations.TimerTransfersAreDirect : Prop :=
  ∀ (x : Reg) (s : State),
    (∃ t, exec (.ldXDt x) s = .next t ∧ t = { s with v := t.v } ∧ ∀ r, t.reg r = if r = x then s.dt else s.reg r) ∧
    (∃ t, exec (.ldDtX x) s = .next t ∧ t = { s with dt := s.reg x } ∧
      t.endCycle.dt.toNat = (s.reg x).toNat - s.input.ticks) ∧
    (∃ t, exec (.ldStX x) s = .next t ∧ t = { s with st := s.reg x } ∧
      t.endCycle.st.toNat = (s.reg x).toNat - s.input.ticks ∧
      (t.endCycle.soundOn = true ↔ t.endCycle.st.toNat ≠ 0))

/-- Wait for key: with a key-down edge and a key active it stores the key's number and goes on; in every other cycle it
only moves `pc` back to itself. The edge reading and the rewind are the spec's own decisions D14 and D33. -/
def Obligations.KeyWaitCompletesOnKeyDown : Prop :=
  ∀ (x : Reg) (s : State),
    (∀ k : Key, s.input.keyDownEdge = true → s.input.activeKey = some k →
      ∃ t, exec (.ldXK x) s = .next t ∧ t = { s with v := t.v } ∧
        (t.reg x).toNat = k.val ∧ ∀ r, r ≠ x → t.reg r = s.reg r) ∧
    (s.input.keyDownEdge = false ∨ s.input.activeKey = none →
      exec (.ldXK x) s = .next { s with pc := s.pc - 2 })

/-- A step that fetches a wait for key in a cycle without a key-down event leaves `pc` at the instruction, so that the
next step fetches it again; registers, I, the stack, memory and the framebuffer stay, and the timers lose the cycle's
ticks. The spec's own decisions D14 and D33. -/
def Obligations.WaitingStepRefetchesKeyWait : Prop :=
  ∀ (x : Reg) (s : State), s.halted = false → decodeWord s.cfg s.fetchWord = .ok (.ldXK x) →
    (s.sampleInput.input.keyDownEdge = false ∨ s.sampleInput.input.activeKey = none) →
    ∃ t, step s = .next t ∧ t.halted = false ∧ t.pc = s.pc ∧ t.fetchWord = s.fetchWord ∧
      t.v = s.v ∧ t.i = s.i ∧ t.sp = s.sp ∧ t.stack = s.stack ∧ t.fb = s.fb ∧
      (∀ a, t.readByte a = s.readByte a) ∧
      t.dt.toNat = s.dt.toNat - s.sampleInput.input.ticks ∧ t.st.toNat = s.st.toNat - s.sampleInput.input.ticks

/-! ### Rules of the whole machine -/

/-- No instruction writes a general register but those R23 gives it. -/
def Obligations.RegistersHaveNoOtherWriters : Prop :=
  ∀ (i : Instr) (s t : State) (r : Reg), exec i s = .next t → t.reg r ≠ s.reg r → mayWriteReg i r

/-- A step changes a byte of memory only when its instruction is FX33 or FX55 and the byte is one of those it stores
from I upwards. -/
def Obligations.MemoryHasNoOtherWriters : Prop :=
  ∀ (s t : State) (a : Nat), s.mem.wf s.cfg.font = true → step s = .next t → t.readByte a ≠ s.readByte a →
    s.halted = false ∧
    ∃ i, decodeWord s.cfg s.fetchWord = .ok i ∧ inBlock s.i.toNat (storedCount i) a

/-- The special registers: `pc` changes only by the jumps, CALL, RET, the skips and a waiting FX0A, SP only by CALL and
RET and the slots by CALL, I only by its writers, DT by FX15, ST by FX18; no instruction writes `op`, the diagnostic
outputs, `sound_on`, or the inputs. That FX0A rewinds `pc` is the spec's own decision D33, that FX55 and FX65 write I only
under INDEX_ADVANCE its decision D6. -/
def Obligations.SpecialRegistersHaveNoOtherWriters : Prop :=
  ∀ (i : Instr) (s t : State), exec i s = .next t →
    (t.pc ≠ s.pc → mayWritePc i) ∧
    (t.sp ≠ s.sp → i = .ret ∨ ∃ nnn, i = .call nnn) ∧
    (t.stack ≠ s.stack → ∃ nnn, i = .call nnn) ∧
    (t.i ≠ s.i → mayWriteIndex s.cfg i) ∧
    (t.dt ≠ s.dt → ∃ x, i = .ldDtX x) ∧
    (t.st ≠ s.st → ∃ x, i = .ldStX x) ∧
    t.op = s.op ∧ t.soundOn = s.soundOn ∧ t.diagValid = s.diagValid ∧ t.diagAddr = s.diagAddr ∧
    t.diagOpcode = s.diagOpcode ∧ t.diagRecognized = s.diagRecognized ∧
    t.input = s.input ∧ t.pending = s.pending ∧ t.freeCount = s.freeCount

/-- No step, Load or Reset changes the configuration. -/
def Obligations.ConfigurationNeverChanges : Prop :=
  ∀ (s t : State) (buf : List Byte), (step s = .next t ∨ (s.load buf).2 = t ∨ s.hostReset = t) → t.cfg = s.cfg

/-- Every fetch writes `op` with the two fetched bytes, and its value does not carry from one cycle to the next (R35);
nor do the outputs of the cycle before, which are the spec's own decisions D29 and D30. -/
def Obligations.OpcodeAndOutputsDoNotCarry : Prop :=
  ∀ (s : State) (w a o : Word) (f d r : Bool), s.halted = false →
    (∃ t, step s = .next t ∧ t.op = s.readByte s.pc.toNat ++ s.readByte (s.pc.toNat + 1)) ∧
    step { s with op := w, fbUpdated := f, diagValid := d, diagAddr := a, diagOpcode := o, diagRecognized := r }
      = step s

/-- Stack slots not in use are not observable: two states that differ only there step to two that differ only there. -/
def Obligations.StaleStackSlotsAreUnobservable : Prop :=
  ∀ s s' t : State, agreeButStaleSlots s s' → step s = .next t →
    ∃ t', step s' = .next t' ∧ agreeButStaleSlots t t'

/-- No instruction but RND depends on the random byte: with another byte, it does the same. -/
def Obligations.OnlyRndReadsRandomByte : Prop :=
  ∀ (i : Instr) (s : State) (b : Byte), (∀ x nn, i ≠ .rnd x nn) →
    exec i { s with input := { s.input with rnd := b } }
      = mapNext (fun t => { t with input := { t.input with rnd := b } }) (exec i s)

/-- No instruction but SKP, SKNP and FX0A depends on the keypad, and only FX0A on the key-down edge. -/
def Obligations.OnlyKeyInstructionsReadKeypad : Prop :=
  ∀ (i : Instr) (s : State) (k : Option Key) (e : Bool),
    ((∀ x, i ≠ .skp x) → (∀ x, i ≠ .sknp x) → (∀ x, i ≠ .ldXK x) →
      exec i { s with input := { s.input with activeKey := k, keyDownEdge := e } }
        = mapNext (fun t => { t with input := { t.input with activeKey := k, keyDownEdge := e } }) (exec i s)) ∧
    ((∀ x, i ≠ .ldXK x) →
      exec i { s with input := { s.input with keyDownEdge := e } }
        = mapNext (fun t => { t with input := { t.input with keyDownEdge := e } }) (exec i s))

/-- No instruction reads the sound timer: with another value in ST, it does the same, FX18 leaving V[x] there. -/
def Obligations.NoInstructionReadsSoundTimer : Prop :=
  ∀ (i : Instr) (s : State) (b : Byte),
    ((∀ x, i ≠ .ldStX x) → exec i { s with st := b } = mapNext (fun t => { t with st := b }) (exec i s)) ∧
    ∀ x, exec (.ldStX x) { s with st := b } = exec (.ldStX x) s

/-- A step keeps the invariant: memory in canonical form, `sound_on` true exactly when ST is nonzero, a recorded fault
exactly when halted and then true of the core, valid diagnostic outputs true. -/
def Obligations.StepKeepsInvariant : Prop := ∀ s t : State, s.Inv → step s = .next t → t.Inv

/-- The reset state meets the invariant, and so does the host's Reset of any state. -/
def Obligations.ResetMeetsInvariant : Prop := State.reset.Inv ∧ ∀ s : State, s.hostReset.Inv

/-- A Load keeps the invariant, as does presenting the next inputs. -/
def Obligations.HostOperationsKeepInvariant : Prop :=
  ∀ (s : State) (buf : List Byte) (inp : CycleInput), s.Inv → (s.load buf).2.Inv ∧ (s.offer inp).Inv
end

