-- ==== Sys2Proof/Laws/State.lean ====
section
/-! SUPPORT. One lemma per field per update of the state, so that no later proof unfolds a record update. -/

namespace Sys2Proof.Machine


/-! ### writeByte -/

@[simp] theorem State.writeByte_v (s : State) (a : Nat) (x : Byte) : (s.writeByte a x).v = s.v := rfl
@[simp] theorem State.writeByte_i (s : State) (a : Nat) (x : Byte) : (s.writeByte a x).i = s.i := rfl
@[simp] theorem State.writeByte_pc (s : State) (a : Nat) (x : Byte) : (s.writeByte a x).pc = s.pc := rfl
@[simp] theorem State.writeByte_stack (s : State) (a : Nat) (x : Byte) : (s.writeByte a x).stack = s.stack := rfl
@[simp] theorem State.writeByte_sp (s : State) (a : Nat) (x : Byte) : (s.writeByte a x).sp = s.sp := rfl
@[simp] theorem State.writeByte_dt (s : State) (a : Nat) (x : Byte) : (s.writeByte a x).dt = s.dt := rfl
@[simp] theorem State.writeByte_st (s : State) (a : Nat) (x : Byte) : (s.writeByte a x).st = s.st := rfl
@[simp] theorem State.writeByte_mem (s : State) (a : Nat) (x : Byte) : (s.writeByte a x).mem = s.mem.write s.cfg.font (a % memSize) x := rfl
@[simp] theorem State.writeByte_fb (s : State) (a : Nat) (x : Byte) : (s.writeByte a x).fb = s.fb := rfl
@[simp] theorem State.writeByte_op (s : State) (a : Nat) (x : Byte) : (s.writeByte a x).op = s.op := rfl
@[simp] theorem State.writeByte_halted (s : State) (a : Nat) (x : Byte) : (s.writeByte a x).halted = s.halted := rfl
@[simp] theorem State.writeByte_fault (s : State) (a : Nat) (x : Byte) : (s.writeByte a x).fault = s.fault := rfl
@[simp] theorem State.writeByte_fbUpdated (s : State) (a : Nat) (x : Byte) : (s.writeByte a x).fbUpdated = s.fbUpdated := rfl
@[simp] theorem State.writeByte_soundOn (s : State) (a : Nat) (x : Byte) : (s.writeByte a x).soundOn = s.soundOn := rfl
@[simp] theorem State.writeByte_diagValid (s : State) (a : Nat) (x : Byte) : (s.writeByte a x).diagValid = s.diagValid := rfl
@[simp] theorem State.writeByte_diagAddr (s : State) (a : Nat) (x : Byte) : (s.writeByte a x).diagAddr = s.diagAddr := rfl
@[simp] theorem State.writeByte_diagOpcode (s : State) (a : Nat) (x : Byte) : (s.writeByte a x).diagOpcode = s.diagOpcode := rfl
@[simp] theorem State.writeByte_diagRecognized (s : State) (a : Nat) (x : Byte) : (s.writeByte a x).diagRecognized = s.diagRecognized := rfl
@[simp] theorem State.writeByte_input (s : State) (a : Nat) (x : Byte) : (s.writeByte a x).input = s.input := rfl
@[simp] theorem State.writeByte_pending (s : State) (a : Nat) (x : Byte) : (s.writeByte a x).pending = s.pending := rfl
@[simp] theorem State.writeByte_freeCount (s : State) (a : Nat) (x : Byte) : (s.writeByte a x).freeCount = s.freeCount := rfl
@[simp] theorem State.writeByte_cfg (s : State) (a : Nat) (x : Byte) : (s.writeByte a x).cfg = s.cfg := rfl

/-! ### setReg -/

@[simp] theorem State.setReg_v (s : State) (x : Reg) (b : Byte) : (s.setReg x b).v = s.v.set x.val b := rfl
@[simp] theorem State.setReg_i (s : State) (x : Reg) (b : Byte) : (s.setReg x b).i = s.i := rfl
@[simp] theorem State.setReg_pc (s : State) (x : Reg) (b : Byte) : (s.setReg x b).pc = s.pc := rfl
@[simp] theorem State.setReg_stack (s : State) (x : Reg) (b : Byte) : (s.setReg x b).stack = s.stack := rfl
@[simp] theorem State.setReg_sp (s : State) (x : Reg) (b : Byte) : (s.setReg x b).sp = s.sp := rfl
@[simp] theorem State.setReg_dt (s : State) (x : Reg) (b : Byte) : (s.setReg x b).dt = s.dt := rfl
@[simp] theorem State.setReg_st (s : State) (x : Reg) (b : Byte) : (s.setReg x b).st = s.st := rfl
@[simp] theorem State.setReg_mem (s : State) (x : Reg) (b : Byte) : (s.setReg x b).mem = s.mem := rfl
@[simp] theorem State.setReg_fb (s : State) (x : Reg) (b : Byte) : (s.setReg x b).fb = s.fb := rfl
@[simp] theorem State.setReg_op (s : State) (x : Reg) (b : Byte) : (s.setReg x b).op = s.op := rfl
@[simp] theorem State.setReg_halted (s : State) (x : Reg) (b : Byte) : (s.setReg x b).halted = s.halted := rfl
@[simp] theorem State.setReg_fault (s : State) (x : Reg) (b : Byte) : (s.setReg x b).fault = s.fault := rfl
@[simp] theorem State.setReg_fbUpdated (s : State) (x : Reg) (b : Byte) : (s.setReg x b).fbUpdated = s.fbUpdated := rfl
@[simp] theorem State.setReg_soundOn (s : State) (x : Reg) (b : Byte) : (s.setReg x b).soundOn = s.soundOn := rfl
@[simp] theorem State.setReg_diagValid (s : State) (x : Reg) (b : Byte) : (s.setReg x b).diagValid = s.diagValid := rfl
@[simp] theorem State.setReg_diagAddr (s : State) (x : Reg) (b : Byte) : (s.setReg x b).diagAddr = s.diagAddr := rfl
@[simp] theorem State.setReg_diagOpcode (s : State) (x : Reg) (b : Byte) : (s.setReg x b).diagOpcode = s.diagOpcode := rfl
@[simp] theorem State.setReg_diagRecognized (s : State) (x : Reg) (b : Byte) : (s.setReg x b).diagRecognized = s.diagRecognized := rfl
@[simp] theorem State.setReg_input (s : State) (x : Reg) (b : Byte) : (s.setReg x b).input = s.input := rfl
@[simp] theorem State.setReg_pending (s : State) (x : Reg) (b : Byte) : (s.setReg x b).pending = s.pending := rfl
@[simp] theorem State.setReg_freeCount (s : State) (x : Reg) (b : Byte) : (s.setReg x b).freeCount = s.freeCount := rfl
@[simp] theorem State.setReg_cfg (s : State) (x : Reg) (b : Byte) : (s.setReg x b).cfg = s.cfg := rfl

/-! ### setRegs -/

@[simp] theorem State.setRegs_v (s : State) (v : Vector Byte 16) : (s.setRegs v).v = v := rfl
@[simp] theorem State.setRegs_i (s : State) (v : Vector Byte 16) : (s.setRegs v).i = s.i := rfl
@[simp] theorem State.setRegs_pc (s : State) (v : Vector Byte 16) : (s.setRegs v).pc = s.pc := rfl
@[simp] theorem State.setRegs_stack (s : State) (v : Vector Byte 16) : (s.setRegs v).stack = s.stack := rfl
@[simp] theorem State.setRegs_sp (s : State) (v : Vector Byte 16) : (s.setRegs v).sp = s.sp := rfl
@[simp] theorem State.setRegs_dt (s : State) (v : Vector Byte 16) : (s.setRegs v).dt = s.dt := rfl
@[simp] theorem State.setRegs_st (s : State) (v : Vector Byte 16) : (s.setRegs v).st = s.st := rfl
@[simp] theorem State.setRegs_mem (s : State) (v : Vector Byte 16) : (s.setRegs v).mem = s.mem := rfl
@[simp] theorem State.setRegs_fb (s : State) (v : Vector Byte 16) : (s.setRegs v).fb = s.fb := rfl
@[simp] theorem State.setRegs_op (s : State) (v : Vector Byte 16) : (s.setRegs v).op = s.op := rfl
@[simp] theorem State.setRegs_halted (s : State) (v : Vector Byte 16) : (s.setRegs v).halted = s.halted := rfl
@[simp] theorem State.setRegs_fault (s : State) (v : Vector Byte 16) : (s.setRegs v).fault = s.fault := rfl
@[simp] theorem State.setRegs_fbUpdated (s : State) (v : Vector Byte 16) : (s.setRegs v).fbUpdated = s.fbUpdated := rfl
@[simp] theorem State.setRegs_soundOn (s : State) (v : Vector Byte 16) : (s.setRegs v).soundOn = s.soundOn := rfl
@[simp] theorem State.setRegs_diagValid (s : State) (v : Vector Byte 16) : (s.setRegs v).diagValid = s.diagValid := rfl
@[simp] theorem State.setRegs_diagAddr (s : State) (v : Vector Byte 16) : (s.setRegs v).diagAddr = s.diagAddr := rfl
@[simp] theorem State.setRegs_diagOpcode (s : State) (v : Vector Byte 16) : (s.setRegs v).diagOpcode = s.diagOpcode := rfl
@[simp] theorem State.setRegs_diagRecognized (s : State) (v : Vector Byte 16) : (s.setRegs v).diagRecognized = s.diagRecognized := rfl
@[simp] theorem State.setRegs_input (s : State) (v : Vector Byte 16) : (s.setRegs v).input = s.input := rfl
@[simp] theorem State.setRegs_pending (s : State) (v : Vector Byte 16) : (s.setRegs v).pending = s.pending := rfl
@[simp] theorem State.setRegs_freeCount (s : State) (v : Vector Byte 16) : (s.setRegs v).freeCount = s.freeCount := rfl
@[simp] theorem State.setRegs_cfg (s : State) (v : Vector Byte 16) : (s.setRegs v).cfg = s.cfg := rfl

/-! ### setFlag -/

@[simp] theorem State.setFlag_i (s : State) (c : Bool) : (s.setFlag c).i = s.i := rfl
@[simp] theorem State.setFlag_pc (s : State) (c : Bool) : (s.setFlag c).pc = s.pc := rfl
@[simp] theorem State.setFlag_stack (s : State) (c : Bool) : (s.setFlag c).stack = s.stack := rfl
@[simp] theorem State.setFlag_sp (s : State) (c : Bool) : (s.setFlag c).sp = s.sp := rfl
@[simp] theorem State.setFlag_dt (s : State) (c : Bool) : (s.setFlag c).dt = s.dt := rfl
@[simp] theorem State.setFlag_st (s : State) (c : Bool) : (s.setFlag c).st = s.st := rfl
@[simp] theorem State.setFlag_mem (s : State) (c : Bool) : (s.setFlag c).mem = s.mem := rfl
@[simp] theorem State.setFlag_fb (s : State) (c : Bool) : (s.setFlag c).fb = s.fb := rfl
@[simp] theorem State.setFlag_op (s : State) (c : Bool) : (s.setFlag c).op = s.op := rfl
@[simp] theorem State.setFlag_halted (s : State) (c : Bool) : (s.setFlag c).halted = s.halted := rfl
@[simp] theorem State.setFlag_fault (s : State) (c : Bool) : (s.setFlag c).fault = s.fault := rfl
@[simp] theorem State.setFlag_fbUpdated (s : State) (c : Bool) : (s.setFlag c).fbUpdated = s.fbUpdated := rfl
@[simp] theorem State.setFlag_soundOn (s : State) (c : Bool) : (s.setFlag c).soundOn = s.soundOn := rfl
@[simp] theorem State.setFlag_diagValid (s : State) (c : Bool) : (s.setFlag c).diagValid = s.diagValid := rfl
@[simp] theorem State.setFlag_diagAddr (s : State) (c : Bool) : (s.setFlag c).diagAddr = s.diagAddr := rfl
@[simp] theorem State.setFlag_diagOpcode (s : State) (c : Bool) : (s.setFlag c).diagOpcode = s.diagOpcode := rfl
@[simp] theorem State.setFlag_diagRecognized (s : State) (c : Bool) : (s.setFlag c).diagRecognized = s.diagRecognized := rfl
@[simp] theorem State.setFlag_input (s : State) (c : Bool) : (s.setFlag c).input = s.input := rfl
@[simp] theorem State.setFlag_pending (s : State) (c : Bool) : (s.setFlag c).pending = s.pending := rfl
@[simp] theorem State.setFlag_freeCount (s : State) (c : Bool) : (s.setFlag c).freeCount = s.freeCount := rfl
@[simp] theorem State.setFlag_cfg (s : State) (c : Bool) : (s.setFlag c).cfg = s.cfg := rfl

/-! ### setRegFlag -/

@[simp] theorem State.setRegFlag_i (s : State) (x : Reg) (r : Byte × Bool) : (s.setRegFlag x r).i = s.i := rfl
@[simp] theorem State.setRegFlag_pc (s : State) (x : Reg) (r : Byte × Bool) : (s.setRegFlag x r).pc = s.pc := rfl
@[simp] theorem State.setRegFlag_stack (s : State) (x : Reg) (r : Byte × Bool) : (s.setRegFlag x r).stack = s.stack := rfl
@[simp] theorem State.setRegFlag_sp (s : State) (x : Reg) (r : Byte × Bool) : (s.setRegFlag x r).sp = s.sp := rfl
@[simp] theorem State.setRegFlag_dt (s : State) (x : Reg) (r : Byte × Bool) : (s.setRegFlag x r).dt = s.dt := rfl
@[simp] theorem State.setRegFlag_st (s : State) (x : Reg) (r : Byte × Bool) : (s.setRegFlag x r).st = s.st := rfl
@[simp] theorem State.setRegFlag_mem (s : State) (x : Reg) (r : Byte × Bool) : (s.setRegFlag x r).mem = s.mem := rfl
@[simp] theorem State.setRegFlag_fb (s : State) (x : Reg) (r : Byte × Bool) : (s.setRegFlag x r).fb = s.fb := rfl
@[simp] theorem State.setRegFlag_op (s : State) (x : Reg) (r : Byte × Bool) : (s.setRegFlag x r).op = s.op := rfl
@[simp] theorem State.setRegFlag_halted (s : State) (x : Reg) (r : Byte × Bool) : (s.setRegFlag x r).halted = s.halted := rfl
@[simp] theorem State.setRegFlag_fault (s : State) (x : Reg) (r : Byte × Bool) : (s.setRegFlag x r).fault = s.fault := rfl
@[simp] theorem State.setRegFlag_fbUpdated (s : State) (x : Reg) (r : Byte × Bool) : (s.setRegFlag x r).fbUpdated = s.fbUpdated := rfl
@[simp] theorem State.setRegFlag_soundOn (s : State) (x : Reg) (r : Byte × Bool) : (s.setRegFlag x r).soundOn = s.soundOn := rfl
@[simp] theorem State.setRegFlag_diagValid (s : State) (x : Reg) (r : Byte × Bool) : (s.setRegFlag x r).diagValid = s.diagValid := rfl
@[simp] theorem State.setRegFlag_diagAddr (s : State) (x : Reg) (r : Byte × Bool) : (s.setRegFlag x r).diagAddr = s.diagAddr := rfl
@[simp] theorem State.setRegFlag_diagOpcode (s : State) (x : Reg) (r : Byte × Bool) : (s.setRegFlag x r).diagOpcode = s.diagOpcode := rfl
@[simp] theorem State.setRegFlag_diagRecognized (s : State) (x : Reg) (r : Byte × Bool) : (s.setRegFlag x r).diagRecognized = s.diagRecognized := rfl
@[simp] theorem State.setRegFlag_input (s : State) (x : Reg) (r : Byte × Bool) : (s.setRegFlag x r).input = s.input := rfl
@[simp] theorem State.setRegFlag_pending (s : State) (x : Reg) (r : Byte × Bool) : (s.setRegFlag x r).pending = s.pending := rfl
@[simp] theorem State.setRegFlag_freeCount (s : State) (x : Reg) (r : Byte × Bool) : (s.setRegFlag x r).freeCount = s.freeCount := rfl
@[simp] theorem State.setRegFlag_cfg (s : State) (x : Reg) (r : Byte × Bool) : (s.setRegFlag x r).cfg = s.cfg := rfl

/-! ### setPc -/

@[simp] theorem State.setPc_v (s : State) (a : Word) : (s.setPc a).v = s.v := rfl
@[simp] theorem State.setPc_i (s : State) (a : Word) : (s.setPc a).i = s.i := rfl
@[simp] theorem State.setPc_pc (s : State) (a : Word) : (s.setPc a).pc = a := rfl
@[simp] theorem State.setPc_stack (s : State) (a : Word) : (s.setPc a).stack = s.stack := rfl
@[simp] theorem State.setPc_sp (s : State) (a : Word) : (s.setPc a).sp = s.sp := rfl
@[simp] theorem State.setPc_dt (s : State) (a : Word) : (s.setPc a).dt = s.dt := rfl
@[simp] theorem State.setPc_st (s : State) (a : Word) : (s.setPc a).st = s.st := rfl
@[simp] theorem State.setPc_mem (s : State) (a : Word) : (s.setPc a).mem = s.mem := rfl
@[simp] theorem State.setPc_fb (s : State) (a : Word) : (s.setPc a).fb = s.fb := rfl
@[simp] theorem State.setPc_op (s : State) (a : Word) : (s.setPc a).op = s.op := rfl
@[simp] theorem State.setPc_halted (s : State) (a : Word) : (s.setPc a).halted = s.halted := rfl
@[simp] theorem State.setPc_fault (s : State) (a : Word) : (s.setPc a).fault = s.fault := rfl
@[simp] theorem State.setPc_fbUpdated (s : State) (a : Word) : (s.setPc a).fbUpdated = s.fbUpdated := rfl
@[simp] theorem State.setPc_soundOn (s : State) (a : Word) : (s.setPc a).soundOn = s.soundOn := rfl
@[simp] theorem State.setPc_diagValid (s : State) (a : Word) : (s.setPc a).diagValid = s.diagValid := rfl
@[simp] theorem State.setPc_diagAddr (s : State) (a : Word) : (s.setPc a).diagAddr = s.diagAddr := rfl
@[simp] theorem State.setPc_diagOpcode (s : State) (a : Word) : (s.setPc a).diagOpcode = s.diagOpcode := rfl
@[simp] theorem State.setPc_diagRecognized (s : State) (a : Word) : (s.setPc a).diagRecognized = s.diagRecognized := rfl
@[simp] theorem State.setPc_input (s : State) (a : Word) : (s.setPc a).input = s.input := rfl
@[simp] theorem State.setPc_pending (s : State) (a : Word) : (s.setPc a).pending = s.pending := rfl
@[simp] theorem State.setPc_freeCount (s : State) (a : Word) : (s.setPc a).freeCount = s.freeCount := rfl
@[simp] theorem State.setPc_cfg (s : State) (a : Word) : (s.setPc a).cfg = s.cfg := rfl

/-! ### setI -/

@[simp] theorem State.setI_v (s : State) (a : Word) : (s.setI a).v = s.v := rfl
@[simp] theorem State.setI_i (s : State) (a : Word) : (s.setI a).i = a := rfl
@[simp] theorem State.setI_pc (s : State) (a : Word) : (s.setI a).pc = s.pc := rfl
@[simp] theorem State.setI_stack (s : State) (a : Word) : (s.setI a).stack = s.stack := rfl
@[simp] theorem State.setI_sp (s : State) (a : Word) : (s.setI a).sp = s.sp := rfl
@[simp] theorem State.setI_dt (s : State) (a : Word) : (s.setI a).dt = s.dt := rfl
@[simp] theorem State.setI_st (s : State) (a : Word) : (s.setI a).st = s.st := rfl
@[simp] theorem State.setI_mem (s : State) (a : Word) : (s.setI a).mem = s.mem := rfl
@[simp] theorem State.setI_fb (s : State) (a : Word) : (s.setI a).fb = s.fb := rfl
@[simp] theorem State.setI_op (s : State) (a : Word) : (s.setI a).op = s.op := rfl
@[simp] theorem State.setI_halted (s : State) (a : Word) : (s.setI a).halted = s.halted := rfl
@[simp] theorem State.setI_fault (s : State) (a : Word) : (s.setI a).fault = s.fault := rfl
@[simp] theorem State.setI_fbUpdated (s : State) (a : Word) : (s.setI a).fbUpdated = s.fbUpdated := rfl
@[simp] theorem State.setI_soundOn (s : State) (a : Word) : (s.setI a).soundOn = s.soundOn := rfl
@[simp] theorem State.setI_diagValid (s : State) (a : Word) : (s.setI a).diagValid = s.diagValid := rfl
@[simp] theorem State.setI_diagAddr (s : State) (a : Word) : (s.setI a).diagAddr = s.diagAddr := rfl
@[simp] theorem State.setI_diagOpcode (s : State) (a : Word) : (s.setI a).diagOpcode = s.diagOpcode := rfl
@[simp] theorem State.setI_diagRecognized (s : State) (a : Word) : (s.setI a).diagRecognized = s.diagRecognized := rfl
@[simp] theorem State.setI_input (s : State) (a : Word) : (s.setI a).input = s.input := rfl
@[simp] theorem State.setI_pending (s : State) (a : Word) : (s.setI a).pending = s.pending := rfl
@[simp] theorem State.setI_freeCount (s : State) (a : Word) : (s.setI a).freeCount = s.freeCount := rfl
@[simp] theorem State.setI_cfg (s : State) (a : Word) : (s.setI a).cfg = s.cfg := rfl

/-! ### setDt -/

@[simp] theorem State.setDt_v (s : State) (b : Byte) : (s.setDt b).v = s.v := rfl
@[simp] theorem State.setDt_i (s : State) (b : Byte) : (s.setDt b).i = s.i := rfl
@[simp] theorem State.setDt_pc (s : State) (b : Byte) : (s.setDt b).pc = s.pc := rfl
@[simp] theorem State.setDt_stack (s : State) (b : Byte) : (s.setDt b).stack = s.stack := rfl
@[simp] theorem State.setDt_sp (s : State) (b : Byte) : (s.setDt b).sp = s.sp := rfl
@[simp] theorem State.setDt_dt (s : State) (b : Byte) : (s.setDt b).dt = b := rfl
@[simp] theorem State.setDt_st (s : State) (b : Byte) : (s.setDt b).st = s.st := rfl
@[simp] theorem State.setDt_mem (s : State) (b : Byte) : (s.setDt b).mem = s.mem := rfl
@[simp] theorem State.setDt_fb (s : State) (b : Byte) : (s.setDt b).fb = s.fb := rfl
@[simp] theorem State.setDt_op (s : State) (b : Byte) : (s.setDt b).op = s.op := rfl
@[simp] theorem State.setDt_halted (s : State) (b : Byte) : (s.setDt b).halted = s.halted := rfl
@[simp] theorem State.setDt_fault (s : State) (b : Byte) : (s.setDt b).fault = s.fault := rfl
@[simp] theorem State.setDt_fbUpdated (s : State) (b : Byte) : (s.setDt b).fbUpdated = s.fbUpdated := rfl
@[simp] theorem State.setDt_soundOn (s : State) (b : Byte) : (s.setDt b).soundOn = s.soundOn := rfl
@[simp] theorem State.setDt_diagValid (s : State) (b : Byte) : (s.setDt b).diagValid = s.diagValid := rfl
@[simp] theorem State.setDt_diagAddr (s : State) (b : Byte) : (s.setDt b).diagAddr = s.diagAddr := rfl
@[simp] theorem State.setDt_diagOpcode (s : State) (b : Byte) : (s.setDt b).diagOpcode = s.diagOpcode := rfl
@[simp] theorem State.setDt_diagRecognized (s : State) (b : Byte) : (s.setDt b).diagRecognized = s.diagRecognized := rfl
@[simp] theorem State.setDt_input (s : State) (b : Byte) : (s.setDt b).input = s.input := rfl
@[simp] theorem State.setDt_pending (s : State) (b : Byte) : (s.setDt b).pending = s.pending := rfl
@[simp] theorem State.setDt_freeCount (s : State) (b : Byte) : (s.setDt b).freeCount = s.freeCount := rfl
@[simp] theorem State.setDt_cfg (s : State) (b : Byte) : (s.setDt b).cfg = s.cfg := rfl

/-! ### setSt -/

@[simp] theorem State.setSt_v (s : State) (b : Byte) : (s.setSt b).v = s.v := rfl
@[simp] theorem State.setSt_i (s : State) (b : Byte) : (s.setSt b).i = s.i := rfl
@[simp] theorem State.setSt_pc (s : State) (b : Byte) : (s.setSt b).pc = s.pc := rfl
@[simp] theorem State.setSt_stack (s : State) (b : Byte) : (s.setSt b).stack = s.stack := rfl
@[simp] theorem State.setSt_sp (s : State) (b : Byte) : (s.setSt b).sp = s.sp := rfl
@[simp] theorem State.setSt_dt (s : State) (b : Byte) : (s.setSt b).dt = s.dt := rfl
@[simp] theorem State.setSt_st (s : State) (b : Byte) : (s.setSt b).st = b := rfl
@[simp] theorem State.setSt_mem (s : State) (b : Byte) : (s.setSt b).mem = s.mem := rfl
@[simp] theorem State.setSt_fb (s : State) (b : Byte) : (s.setSt b).fb = s.fb := rfl
@[simp] theorem State.setSt_op (s : State) (b : Byte) : (s.setSt b).op = s.op := rfl
@[simp] theorem State.setSt_halted (s : State) (b : Byte) : (s.setSt b).halted = s.halted := rfl
@[simp] theorem State.setSt_fault (s : State) (b : Byte) : (s.setSt b).fault = s.fault := rfl
@[simp] theorem State.setSt_fbUpdated (s : State) (b : Byte) : (s.setSt b).fbUpdated = s.fbUpdated := rfl
@[simp] theorem State.setSt_soundOn (s : State) (b : Byte) : (s.setSt b).soundOn = s.soundOn := rfl
@[simp] theorem State.setSt_diagValid (s : State) (b : Byte) : (s.setSt b).diagValid = s.diagValid := rfl
@[simp] theorem State.setSt_diagAddr (s : State) (b : Byte) : (s.setSt b).diagAddr = s.diagAddr := rfl
@[simp] theorem State.setSt_diagOpcode (s : State) (b : Byte) : (s.setSt b).diagOpcode = s.diagOpcode := rfl
@[simp] theorem State.setSt_diagRecognized (s : State) (b : Byte) : (s.setSt b).diagRecognized = s.diagRecognized := rfl
@[simp] theorem State.setSt_input (s : State) (b : Byte) : (s.setSt b).input = s.input := rfl
@[simp] theorem State.setSt_pending (s : State) (b : Byte) : (s.setSt b).pending = s.pending := rfl
@[simp] theorem State.setSt_freeCount (s : State) (b : Byte) : (s.setSt b).freeCount = s.freeCount := rfl
@[simp] theorem State.setSt_cfg (s : State) (b : Byte) : (s.setSt b).cfg = s.cfg := rfl

/-! ### setFb -/

@[simp] theorem State.setFb_v (s : State) (g : Framebuffer) : (s.setFb g).v = s.v := rfl
@[simp] theorem State.setFb_i (s : State) (g : Framebuffer) : (s.setFb g).i = s.i := rfl
@[simp] theorem State.setFb_pc (s : State) (g : Framebuffer) : (s.setFb g).pc = s.pc := rfl
@[simp] theorem State.setFb_stack (s : State) (g : Framebuffer) : (s.setFb g).stack = s.stack := rfl
@[simp] theorem State.setFb_sp (s : State) (g : Framebuffer) : (s.setFb g).sp = s.sp := rfl
@[simp] theorem State.setFb_dt (s : State) (g : Framebuffer) : (s.setFb g).dt = s.dt := rfl
@[simp] theorem State.setFb_st (s : State) (g : Framebuffer) : (s.setFb g).st = s.st := rfl
@[simp] theorem State.setFb_mem (s : State) (g : Framebuffer) : (s.setFb g).mem = s.mem := rfl
@[simp] theorem State.setFb_fb (s : State) (g : Framebuffer) : (s.setFb g).fb = g := rfl
@[simp] theorem State.setFb_op (s : State) (g : Framebuffer) : (s.setFb g).op = s.op := rfl
@[simp] theorem State.setFb_halted (s : State) (g : Framebuffer) : (s.setFb g).halted = s.halted := rfl
@[simp] theorem State.setFb_fault (s : State) (g : Framebuffer) : (s.setFb g).fault = s.fault := rfl
@[simp] theorem State.setFb_fbUpdated (s : State) (g : Framebuffer) : (s.setFb g).fbUpdated = true := rfl
@[simp] theorem State.setFb_soundOn (s : State) (g : Framebuffer) : (s.setFb g).soundOn = s.soundOn := rfl
@[simp] theorem State.setFb_diagValid (s : State) (g : Framebuffer) : (s.setFb g).diagValid = s.diagValid := rfl
@[simp] theorem State.setFb_diagAddr (s : State) (g : Framebuffer) : (s.setFb g).diagAddr = s.diagAddr := rfl
@[simp] theorem State.setFb_diagOpcode (s : State) (g : Framebuffer) : (s.setFb g).diagOpcode = s.diagOpcode := rfl
@[simp] theorem State.setFb_diagRecognized (s : State) (g : Framebuffer) : (s.setFb g).diagRecognized = s.diagRecognized := rfl
@[simp] theorem State.setFb_input (s : State) (g : Framebuffer) : (s.setFb g).input = s.input := rfl
@[simp] theorem State.setFb_pending (s : State) (g : Framebuffer) : (s.setFb g).pending = s.pending := rfl
@[simp] theorem State.setFb_freeCount (s : State) (g : Framebuffer) : (s.setFb g).freeCount = s.freeCount := rfl
@[simp] theorem State.setFb_cfg (s : State) (g : Framebuffer) : (s.setFb g).cfg = s.cfg := rfl

/-! ### skipIf -/

@[simp] theorem State.skipIf_v (s : State) (c : Bool) : (s.skipIf c).v = s.v := rfl
@[simp] theorem State.skipIf_i (s : State) (c : Bool) : (s.skipIf c).i = s.i := rfl
@[simp] theorem State.skipIf_pc (s : State) (c : Bool) : (s.skipIf c).pc = if c then s.pc + 2 else s.pc := rfl
@[simp] theorem State.skipIf_stack (s : State) (c : Bool) : (s.skipIf c).stack = s.stack := rfl
@[simp] theorem State.skipIf_sp (s : State) (c : Bool) : (s.skipIf c).sp = s.sp := rfl
@[simp] theorem State.skipIf_dt (s : State) (c : Bool) : (s.skipIf c).dt = s.dt := rfl
@[simp] theorem State.skipIf_st (s : State) (c : Bool) : (s.skipIf c).st = s.st := rfl
@[simp] theorem State.skipIf_mem (s : State) (c : Bool) : (s.skipIf c).mem = s.mem := rfl
@[simp] theorem State.skipIf_fb (s : State) (c : Bool) : (s.skipIf c).fb = s.fb := rfl
@[simp] theorem State.skipIf_op (s : State) (c : Bool) : (s.skipIf c).op = s.op := rfl
@[simp] theorem State.skipIf_halted (s : State) (c : Bool) : (s.skipIf c).halted = s.halted := rfl
@[simp] theorem State.skipIf_fault (s : State) (c : Bool) : (s.skipIf c).fault = s.fault := rfl
@[simp] theorem State.skipIf_fbUpdated (s : State) (c : Bool) : (s.skipIf c).fbUpdated = s.fbUpdated := rfl
@[simp] theorem State.skipIf_soundOn (s : State) (c : Bool) : (s.skipIf c).soundOn = s.soundOn := rfl
@[simp] theorem State.skipIf_diagValid (s : State) (c : Bool) : (s.skipIf c).diagValid = s.diagValid := rfl
@[simp] theorem State.skipIf_diagAddr (s : State) (c : Bool) : (s.skipIf c).diagAddr = s.diagAddr := rfl
@[simp] theorem State.skipIf_diagOpcode (s : State) (c : Bool) : (s.skipIf c).diagOpcode = s.diagOpcode := rfl
@[simp] theorem State.skipIf_diagRecognized (s : State) (c : Bool) : (s.skipIf c).diagRecognized = s.diagRecognized := rfl
@[simp] theorem State.skipIf_input (s : State) (c : Bool) : (s.skipIf c).input = s.input := rfl
@[simp] theorem State.skipIf_pending (s : State) (c : Bool) : (s.skipIf c).pending = s.pending := rfl
@[simp] theorem State.skipIf_freeCount (s : State) (c : Bool) : (s.skipIf c).freeCount = s.freeCount := rfl
@[simp] theorem State.skipIf_cfg (s : State) (c : Bool) : (s.skipIf c).cfg = s.cfg := rfl

/-! ### takeFatal -/

@[simp] theorem State.takeFatal_v (s : State) (k : FatalKind) : (s.takeFatal k).v = s.v := rfl
@[simp] theorem State.takeFatal_i (s : State) (k : FatalKind) : (s.takeFatal k).i = s.i := rfl
@[simp] theorem State.takeFatal_pc (s : State) (k : FatalKind) : (s.takeFatal k).pc = s.pc := rfl
@[simp] theorem State.takeFatal_stack (s : State) (k : FatalKind) : (s.takeFatal k).stack = s.stack := rfl
@[simp] theorem State.takeFatal_sp (s : State) (k : FatalKind) : (s.takeFatal k).sp = s.sp := rfl
@[simp] theorem State.takeFatal_dt (s : State) (k : FatalKind) : (s.takeFatal k).dt = s.dt := rfl
@[simp] theorem State.takeFatal_st (s : State) (k : FatalKind) : (s.takeFatal k).st = s.st := rfl
@[simp] theorem State.takeFatal_mem (s : State) (k : FatalKind) : (s.takeFatal k).mem = s.mem := rfl
@[simp] theorem State.takeFatal_fb (s : State) (k : FatalKind) : (s.takeFatal k).fb = s.fb := rfl
@[simp] theorem State.takeFatal_op (s : State) (k : FatalKind) : (s.takeFatal k).op = s.op := rfl
@[simp] theorem State.takeFatal_halted (s : State) (k : FatalKind) : (s.takeFatal k).halted = true := rfl
@[simp] theorem State.takeFatal_fault (s : State) (k : FatalKind) : (s.takeFatal k).fault = ⟨some k, s.pc - 2, s.op⟩ := rfl
@[simp] theorem State.takeFatal_fbUpdated (s : State) (k : FatalKind) : (s.takeFatal k).fbUpdated = s.fbUpdated := rfl
@[simp] theorem State.takeFatal_soundOn (s : State) (k : FatalKind) : (s.takeFatal k).soundOn = s.soundOn := rfl
@[simp] theorem State.takeFatal_diagValid (s : State) (k : FatalKind) : (s.takeFatal k).diagValid = s.diagValid := rfl
@[simp] theorem State.takeFatal_diagAddr (s : State) (k : FatalKind) : (s.takeFatal k).diagAddr = s.diagAddr := rfl
@[simp] theorem State.takeFatal_diagOpcode (s : State) (k : FatalKind) : (s.takeFatal k).diagOpcode = s.diagOpcode := rfl
@[simp] theorem State.takeFatal_diagRecognized (s : State) (k : FatalKind) : (s.takeFatal k).diagRecognized = s.diagRecognized := rfl
@[simp] theorem State.takeFatal_input (s : State) (k : FatalKind) : (s.takeFatal k).input = s.input := rfl
@[simp] theorem State.takeFatal_pending (s : State) (k : FatalKind) : (s.takeFatal k).pending = s.pending := rfl
@[simp] theorem State.takeFatal_freeCount (s : State) (k : FatalKind) : (s.takeFatal k).freeCount = s.freeCount := rfl
@[simp] theorem State.takeFatal_cfg (s : State) (k : FatalKind) : (s.takeFatal k).cfg = s.cfg := rfl

/-! ### fetch -/

@[simp] theorem State.fetch_v (s : State) : (s.fetch).v = s.v := rfl
@[simp] theorem State.fetch_i (s : State) : (s.fetch).i = s.i := rfl
@[simp] theorem State.fetch_pc (s : State) : (s.fetch).pc = s.pc + 2 := rfl
@[simp] theorem State.fetch_stack (s : State) : (s.fetch).stack = s.stack := rfl
@[simp] theorem State.fetch_sp (s : State) : (s.fetch).sp = s.sp := rfl
@[simp] theorem State.fetch_dt (s : State) : (s.fetch).dt = s.dt := rfl
@[simp] theorem State.fetch_st (s : State) : (s.fetch).st = s.st := rfl
@[simp] theorem State.fetch_mem (s : State) : (s.fetch).mem = s.mem := rfl
@[simp] theorem State.fetch_fb (s : State) : (s.fetch).fb = s.fb := rfl
@[simp] theorem State.fetch_op (s : State) : (s.fetch).op = s.fetchWord := rfl
@[simp] theorem State.fetch_halted (s : State) : (s.fetch).halted = s.halted := rfl
@[simp] theorem State.fetch_fault (s : State) : (s.fetch).fault = s.fault := rfl
@[simp] theorem State.fetch_fbUpdated (s : State) : (s.fetch).fbUpdated = s.fbUpdated := rfl
@[simp] theorem State.fetch_soundOn (s : State) : (s.fetch).soundOn = s.soundOn := rfl
@[simp] theorem State.fetch_diagValid (s : State) : (s.fetch).diagValid = true := rfl
@[simp] theorem State.fetch_diagAddr (s : State) : (s.fetch).diagAddr = s.pc := rfl
@[simp] theorem State.fetch_diagOpcode (s : State) : (s.fetch).diagOpcode = s.fetchWord := rfl
@[simp] theorem State.fetch_diagRecognized (s : State) : (s.fetch).diagRecognized = s.diagRecognized := rfl
@[simp] theorem State.fetch_input (s : State) : (s.fetch).input = s.input := rfl
@[simp] theorem State.fetch_pending (s : State) : (s.fetch).pending = s.pending := rfl
@[simp] theorem State.fetch_freeCount (s : State) : (s.fetch).freeCount = s.freeCount := rfl
@[simp] theorem State.fetch_cfg (s : State) : (s.fetch).cfg = s.cfg := rfl

/-! ### report -/

@[simp] theorem State.report_v (s : State) (c : Bool) : (s.report c).v = s.v := rfl
@[simp] theorem State.report_i (s : State) (c : Bool) : (s.report c).i = s.i := rfl
@[simp] theorem State.report_pc (s : State) (c : Bool) : (s.report c).pc = s.pc := rfl
@[simp] theorem State.report_stack (s : State) (c : Bool) : (s.report c).stack = s.stack := rfl
@[simp] theorem State.report_sp (s : State) (c : Bool) : (s.report c).sp = s.sp := rfl
@[simp] theorem State.report_dt (s : State) (c : Bool) : (s.report c).dt = s.dt := rfl
@[simp] theorem State.report_st (s : State) (c : Bool) : (s.report c).st = s.st := rfl
@[simp] theorem State.report_mem (s : State) (c : Bool) : (s.report c).mem = s.mem := rfl
@[simp] theorem State.report_fb (s : State) (c : Bool) : (s.report c).fb = s.fb := rfl
@[simp] theorem State.report_op (s : State) (c : Bool) : (s.report c).op = s.op := rfl
@[simp] theorem State.report_halted (s : State) (c : Bool) : (s.report c).halted = s.halted := rfl
@[simp] theorem State.report_fault (s : State) (c : Bool) : (s.report c).fault = s.fault := rfl
@[simp] theorem State.report_fbUpdated (s : State) (c : Bool) : (s.report c).fbUpdated = s.fbUpdated := rfl
@[simp] theorem State.report_soundOn (s : State) (c : Bool) : (s.report c).soundOn = s.soundOn := rfl
@[simp] theorem State.report_diagValid (s : State) (c : Bool) : (s.report c).diagValid = s.diagValid := rfl
@[simp] theorem State.report_diagAddr (s : State) (c : Bool) : (s.report c).diagAddr = s.diagAddr := rfl
@[simp] theorem State.report_diagOpcode (s : State) (c : Bool) : (s.report c).diagOpcode = s.diagOpcode := rfl
@[simp] theorem State.report_diagRecognized (s : State) (c : Bool) : (s.report c).diagRecognized = c := rfl
@[simp] theorem State.report_input (s : State) (c : Bool) : (s.report c).input = s.input := rfl
@[simp] theorem State.report_pending (s : State) (c : Bool) : (s.report c).pending = s.pending := rfl
@[simp] theorem State.report_freeCount (s : State) (c : Bool) : (s.report c).freeCount = s.freeCount := rfl
@[simp] theorem State.report_cfg (s : State) (c : Bool) : (s.report c).cfg = s.cfg := rfl

/-! ### endCycle -/

@[simp] theorem State.endCycle_v (s : State) : (s.endCycle).v = s.v := rfl
@[simp] theorem State.endCycle_i (s : State) : (s.endCycle).i = s.i := rfl
@[simp] theorem State.endCycle_pc (s : State) : (s.endCycle).pc = s.pc := rfl
@[simp] theorem State.endCycle_stack (s : State) : (s.endCycle).stack = s.stack := rfl
@[simp] theorem State.endCycle_sp (s : State) : (s.endCycle).sp = s.sp := rfl
@[simp] theorem State.endCycle_dt (s : State) : (s.endCycle).dt = timerAfter s.dt s.input.ticks := rfl
@[simp] theorem State.endCycle_st (s : State) : (s.endCycle).st = timerAfter s.st s.input.ticks := rfl
@[simp] theorem State.endCycle_mem (s : State) : (s.endCycle).mem = s.mem := rfl
@[simp] theorem State.endCycle_fb (s : State) : (s.endCycle).fb = s.fb := rfl
@[simp] theorem State.endCycle_op (s : State) : (s.endCycle).op = s.op := rfl
@[simp] theorem State.endCycle_halted (s : State) : (s.endCycle).halted = s.halted := rfl
@[simp] theorem State.endCycle_fault (s : State) : (s.endCycle).fault = s.fault := rfl
@[simp] theorem State.endCycle_fbUpdated (s : State) : (s.endCycle).fbUpdated = s.fbUpdated := rfl
@[simp] theorem State.endCycle_soundOn (s : State) : (s.endCycle).soundOn = (timerAfter s.st s.input.ticks != 0) := rfl
@[simp] theorem State.endCycle_diagValid (s : State) : (s.endCycle).diagValid = s.diagValid := rfl
@[simp] theorem State.endCycle_diagAddr (s : State) : (s.endCycle).diagAddr = s.diagAddr := rfl
@[simp] theorem State.endCycle_diagOpcode (s : State) : (s.endCycle).diagOpcode = s.diagOpcode := rfl
@[simp] theorem State.endCycle_diagRecognized (s : State) : (s.endCycle).diagRecognized = s.diagRecognized := rfl
@[simp] theorem State.endCycle_input (s : State) : (s.endCycle).input = s.input := rfl
@[simp] theorem State.endCycle_pending (s : State) : (s.endCycle).pending = s.pending := rfl
@[simp] theorem State.endCycle_freeCount (s : State) : (s.endCycle).freeCount = s.freeCount := rfl
@[simp] theorem State.endCycle_cfg (s : State) : (s.endCycle).cfg = s.cfg := rfl

/-! ### offer -/

@[simp] theorem State.offer_v (s : State) (n : CycleInput) : (s.offer n).v = s.v := rfl
@[simp] theorem State.offer_i (s : State) (n : CycleInput) : (s.offer n).i = s.i := rfl
@[simp] theorem State.offer_pc (s : State) (n : CycleInput) : (s.offer n).pc = s.pc := rfl
@[simp] theorem State.offer_stack (s : State) (n : CycleInput) : (s.offer n).stack = s.stack := rfl
@[simp] theorem State.offer_sp (s : State) (n : CycleInput) : (s.offer n).sp = s.sp := rfl
@[simp] theorem State.offer_dt (s : State) (n : CycleInput) : (s.offer n).dt = s.dt := rfl
@[simp] theorem State.offer_st (s : State) (n : CycleInput) : (s.offer n).st = s.st := rfl
@[simp] theorem State.offer_mem (s : State) (n : CycleInput) : (s.offer n).mem = s.mem := rfl
@[simp] theorem State.offer_fb (s : State) (n : CycleInput) : (s.offer n).fb = s.fb := rfl
@[simp] theorem State.offer_op (s : State) (n : CycleInput) : (s.offer n).op = s.op := rfl
@[simp] theorem State.offer_halted (s : State) (n : CycleInput) : (s.offer n).halted = s.halted := rfl
@[simp] theorem State.offer_fault (s : State) (n : CycleInput) : (s.offer n).fault = s.fault := rfl
@[simp] theorem State.offer_fbUpdated (s : State) (n : CycleInput) : (s.offer n).fbUpdated = s.fbUpdated := rfl
@[simp] theorem State.offer_soundOn (s : State) (n : CycleInput) : (s.offer n).soundOn = s.soundOn := rfl
@[simp] theorem State.offer_diagValid (s : State) (n : CycleInput) : (s.offer n).diagValid = s.diagValid := rfl
@[simp] theorem State.offer_diagAddr (s : State) (n : CycleInput) : (s.offer n).diagAddr = s.diagAddr := rfl
@[simp] theorem State.offer_diagOpcode (s : State) (n : CycleInput) : (s.offer n).diagOpcode = s.diagOpcode := rfl
@[simp] theorem State.offer_diagRecognized (s : State) (n : CycleInput) : (s.offer n).diagRecognized = s.diagRecognized := rfl
@[simp] theorem State.offer_input (s : State) (n : CycleInput) : (s.offer n).input = s.input := rfl
@[simp] theorem State.offer_pending (s : State) (n : CycleInput) : (s.offer n).pending = n :: s.pending := rfl
@[simp] theorem State.offer_freeCount (s : State) (n : CycleInput) : (s.offer n).freeCount = s.freeCount := rfl
@[simp] theorem State.offer_cfg (s : State) (n : CycleInput) : (s.offer n).cfg = s.cfg := rfl

/-! ### sampleInput -/

@[simp] theorem State.sampleInput_v (s : State) : (s.sampleInput).v = s.v := by unfold State.sampleInput; split <;> rfl
@[simp] theorem State.sampleInput_i (s : State) : (s.sampleInput).i = s.i := by unfold State.sampleInput; split <;> rfl
@[simp] theorem State.sampleInput_pc (s : State) : (s.sampleInput).pc = s.pc := by unfold State.sampleInput; split <;> rfl
@[simp] theorem State.sampleInput_stack (s : State) : (s.sampleInput).stack = s.stack := by unfold State.sampleInput; split <;> rfl
@[simp] theorem State.sampleInput_sp (s : State) : (s.sampleInput).sp = s.sp := by unfold State.sampleInput; split <;> rfl
@[simp] theorem State.sampleInput_dt (s : State) : (s.sampleInput).dt = s.dt := by unfold State.sampleInput; split <;> rfl
@[simp] theorem State.sampleInput_st (s : State) : (s.sampleInput).st = s.st := by unfold State.sampleInput; split <;> rfl
@[simp] theorem State.sampleInput_mem (s : State) : (s.sampleInput).mem = s.mem := by unfold State.sampleInput; split <;> rfl
@[simp] theorem State.sampleInput_fb (s : State) : (s.sampleInput).fb = s.fb := by unfold State.sampleInput; split <;> rfl
@[simp] theorem State.sampleInput_op (s : State) : (s.sampleInput).op = s.op := by unfold State.sampleInput; split <;> rfl
@[simp] theorem State.sampleInput_halted (s : State) : (s.sampleInput).halted = s.halted := by unfold State.sampleInput; split <;> rfl
@[simp] theorem State.sampleInput_fault (s : State) : (s.sampleInput).fault = s.fault := by unfold State.sampleInput; split <;> rfl
@[simp] theorem State.sampleInput_fbUpdated (s : State) : (s.sampleInput).fbUpdated = s.fbUpdated := by unfold State.sampleInput; split <;> rfl
@[simp] theorem State.sampleInput_soundOn (s : State) : (s.sampleInput).soundOn = s.soundOn := by unfold State.sampleInput; split <;> rfl
@[simp] theorem State.sampleInput_diagValid (s : State) : (s.sampleInput).diagValid = s.diagValid := by unfold State.sampleInput; split <;> rfl
@[simp] theorem State.sampleInput_diagAddr (s : State) : (s.sampleInput).diagAddr = s.diagAddr := by unfold State.sampleInput; split <;> rfl
@[simp] theorem State.sampleInput_diagOpcode (s : State) : (s.sampleInput).diagOpcode = s.diagOpcode := by unfold State.sampleInput; split <;> rfl
@[simp] theorem State.sampleInput_diagRecognized (s : State) : (s.sampleInput).diagRecognized = s.diagRecognized := by unfold State.sampleInput; split <;> rfl
@[simp] theorem State.sampleInput_cfg (s : State) : (s.sampleInput).cfg = s.cfg := by unfold State.sampleInput; split <;> rfl

/-! ### beginCycle -/

@[simp] theorem State.beginCycle_v (s : State) : (s.beginCycle).v = s.v := State.sampleInput_v s
@[simp] theorem State.beginCycle_i (s : State) : (s.beginCycle).i = s.i := State.sampleInput_i s
@[simp] theorem State.beginCycle_pc (s : State) : (s.beginCycle).pc = s.pc := State.sampleInput_pc s
@[simp] theorem State.beginCycle_stack (s : State) : (s.beginCycle).stack = s.stack := State.sampleInput_stack s
@[simp] theorem State.beginCycle_sp (s : State) : (s.beginCycle).sp = s.sp := State.sampleInput_sp s
@[simp] theorem State.beginCycle_dt (s : State) : (s.beginCycle).dt = s.dt := State.sampleInput_dt s
@[simp] theorem State.beginCycle_st (s : State) : (s.beginCycle).st = s.st := State.sampleInput_st s
@[simp] theorem State.beginCycle_mem (s : State) : (s.beginCycle).mem = s.mem := State.sampleInput_mem s
@[simp] theorem State.beginCycle_fb (s : State) : (s.beginCycle).fb = s.fb := State.sampleInput_fb s
@[simp] theorem State.beginCycle_op (s : State) : (s.beginCycle).op = s.op := State.sampleInput_op s
@[simp] theorem State.beginCycle_halted (s : State) : (s.beginCycle).halted = s.halted := State.sampleInput_halted s
@[simp] theorem State.beginCycle_fault (s : State) : (s.beginCycle).fault = s.fault := State.sampleInput_fault s
@[simp] theorem State.beginCycle_soundOn (s : State) : (s.beginCycle).soundOn = s.soundOn := State.sampleInput_soundOn s
@[simp] theorem State.beginCycle_diagAddr (s : State) : (s.beginCycle).diagAddr = s.diagAddr := State.sampleInput_diagAddr s
@[simp] theorem State.beginCycle_diagOpcode (s : State) : (s.beginCycle).diagOpcode = s.diagOpcode := State.sampleInput_diagOpcode s
@[simp] theorem State.beginCycle_diagRecognized (s : State) : (s.beginCycle).diagRecognized = s.diagRecognized := State.sampleInput_diagRecognized s
@[simp] theorem State.beginCycle_cfg (s : State) : (s.beginCycle).cfg = s.cfg := State.sampleInput_cfg s

/-! ### setIndexFlag -/

@[simp] theorem State.setIndexFlag_i (s : State) (n : Nat) : (s.setIndexFlag n).i = s.i := by unfold State.setIndexFlag; split <;> [skip; split] <;> rfl
@[simp] theorem State.setIndexFlag_pc (s : State) (n : Nat) : (s.setIndexFlag n).pc = s.pc := by unfold State.setIndexFlag; split <;> [skip; split] <;> rfl
@[simp] theorem State.setIndexFlag_stack (s : State) (n : Nat) : (s.setIndexFlag n).stack = s.stack := by unfold State.setIndexFlag; split <;> [skip; split] <;> rfl
@[simp] theorem State.setIndexFlag_sp (s : State) (n : Nat) : (s.setIndexFlag n).sp = s.sp := by unfold State.setIndexFlag; split <;> [skip; split] <;> rfl
@[simp] theorem State.setIndexFlag_dt (s : State) (n : Nat) : (s.setIndexFlag n).dt = s.dt := by unfold State.setIndexFlag; split <;> [skip; split] <;> rfl
@[simp] theorem State.setIndexFlag_st (s : State) (n : Nat) : (s.setIndexFlag n).st = s.st := by unfold State.setIndexFlag; split <;> [skip; split] <;> rfl
@[simp] theorem State.setIndexFlag_mem (s : State) (n : Nat) : (s.setIndexFlag n).mem = s.mem := by unfold State.setIndexFlag; split <;> [skip; split] <;> rfl
@[simp] theorem State.setIndexFlag_fb (s : State) (n : Nat) : (s.setIndexFlag n).fb = s.fb := by unfold State.setIndexFlag; split <;> [skip; split] <;> rfl
@[simp] theorem State.setIndexFlag_op (s : State) (n : Nat) : (s.setIndexFlag n).op = s.op := by unfold State.setIndexFlag; split <;> [skip; split] <;> rfl
@[simp] theorem State.setIndexFlag_halted (s : State) (n : Nat) : (s.setIndexFlag n).halted = s.halted := by unfold State.setIndexFlag; split <;> [skip; split] <;> rfl
@[simp] theorem State.setIndexFlag_fault (s : State) (n : Nat) : (s.setIndexFlag n).fault = s.fault := by unfold State.setIndexFlag; split <;> [skip; split] <;> rfl
@[simp] theorem State.setIndexFlag_fbUpdated (s : State) (n : Nat) : (s.setIndexFlag n).fbUpdated = s.fbUpdated := by unfold State.setIndexFlag; split <;> [skip; split] <;> rfl
@[simp] theorem State.setIndexFlag_soundOn (s : State) (n : Nat) : (s.setIndexFlag n).soundOn = s.soundOn := by unfold State.setIndexFlag; split <;> [skip; split] <;> rfl
@[simp] theorem State.setIndexFlag_diagValid (s : State) (n : Nat) : (s.setIndexFlag n).diagValid = s.diagValid := by unfold State.setIndexFlag; split <;> [skip; split] <;> rfl
@[simp] theorem State.setIndexFlag_diagAddr (s : State) (n : Nat) : (s.setIndexFlag n).diagAddr = s.diagAddr := by unfold State.setIndexFlag; split <;> [skip; split] <;> rfl
@[simp] theorem State.setIndexFlag_diagOpcode (s : State) (n : Nat) : (s.setIndexFlag n).diagOpcode = s.diagOpcode := by unfold State.setIndexFlag; split <;> [skip; split] <;> rfl
@[simp] theorem State.setIndexFlag_diagRecognized (s : State) (n : Nat) : (s.setIndexFlag n).diagRecognized = s.diagRecognized := by unfold State.setIndexFlag; split <;> [skip; split] <;> rfl
@[simp] theorem State.setIndexFlag_input (s : State) (n : Nat) : (s.setIndexFlag n).input = s.input := by unfold State.setIndexFlag; split <;> [skip; split] <;> rfl
@[simp] theorem State.setIndexFlag_pending (s : State) (n : Nat) : (s.setIndexFlag n).pending = s.pending := by unfold State.setIndexFlag; split <;> [skip; split] <;> rfl
@[simp] theorem State.setIndexFlag_freeCount (s : State) (n : Nat) : (s.setIndexFlag n).freeCount = s.freeCount := by unfold State.setIndexFlag; split <;> [skip; split] <;> rfl
@[simp] theorem State.setIndexFlag_cfg (s : State) (n : Nat) : (s.setIndexFlag n).cfg = s.cfg := by unfold State.setIndexFlag; split <;> [skip; split] <;> rfl

/-! ### advanceIndex -/

@[simp] theorem State.advanceIndex_v (s : State) (x : Reg) : (s.advanceIndex x).v = s.v := by unfold State.advanceIndex; split <;> rfl
@[simp] theorem State.advanceIndex_pc (s : State) (x : Reg) : (s.advanceIndex x).pc = s.pc := by unfold State.advanceIndex; split <;> rfl
@[simp] theorem State.advanceIndex_stack (s : State) (x : Reg) : (s.advanceIndex x).stack = s.stack := by unfold State.advanceIndex; split <;> rfl
@[simp] theorem State.advanceIndex_sp (s : State) (x : Reg) : (s.advanceIndex x).sp = s.sp := by unfold State.advanceIndex; split <;> rfl
@[simp] theorem State.advanceIndex_dt (s : State) (x : Reg) : (s.advanceIndex x).dt = s.dt := by unfold State.advanceIndex; split <;> rfl
@[simp] theorem State.advanceIndex_st (s : State) (x : Reg) : (s.advanceIndex x).st = s.st := by unfold State.advanceIndex; split <;> rfl
@[simp] theorem State.advanceIndex_mem (s : State) (x : Reg) : (s.advanceIndex x).mem = s.mem := by unfold State.advanceIndex; split <;> rfl
@[simp] theorem State.advanceIndex_fb (s : State) (x : Reg) : (s.advanceIndex x).fb = s.fb := by unfold State.advanceIndex; split <;> rfl
@[simp] theorem State.advanceIndex_op (s : State) (x : Reg) : (s.advanceIndex x).op = s.op := by unfold State.advanceIndex; split <;> rfl
@[simp] theorem State.advanceIndex_halted (s : State) (x : Reg) : (s.advanceIndex x).halted = s.halted := by unfold State.advanceIndex; split <;> rfl
@[simp] theorem State.advanceIndex_fault (s : State) (x : Reg) : (s.advanceIndex x).fault = s.fault := by unfold State.advanceIndex; split <;> rfl
@[simp] theorem State.advanceIndex_fbUpdated (s : State) (x : Reg) : (s.advanceIndex x).fbUpdated = s.fbUpdated := by unfold State.advanceIndex; split <;> rfl
@[simp] theorem State.advanceIndex_soundOn (s : State) (x : Reg) : (s.advanceIndex x).soundOn = s.soundOn := by unfold State.advanceIndex; split <;> rfl
@[simp] theorem State.advanceIndex_diagValid (s : State) (x : Reg) : (s.advanceIndex x).diagValid = s.diagValid := by unfold State.advanceIndex; split <;> rfl
@[simp] theorem State.advanceIndex_diagAddr (s : State) (x : Reg) : (s.advanceIndex x).diagAddr = s.diagAddr := by unfold State.advanceIndex; split <;> rfl
@[simp] theorem State.advanceIndex_diagOpcode (s : State) (x : Reg) : (s.advanceIndex x).diagOpcode = s.diagOpcode := by unfold State.advanceIndex; split <;> rfl
@[simp] theorem State.advanceIndex_diagRecognized (s : State) (x : Reg) : (s.advanceIndex x).diagRecognized = s.diagRecognized := by unfold State.advanceIndex; split <;> rfl
@[simp] theorem State.advanceIndex_input (s : State) (x : Reg) : (s.advanceIndex x).input = s.input := by unfold State.advanceIndex; split <;> rfl
@[simp] theorem State.advanceIndex_pending (s : State) (x : Reg) : (s.advanceIndex x).pending = s.pending := by unfold State.advanceIndex; split <;> rfl
@[simp] theorem State.advanceIndex_freeCount (s : State) (x : Reg) : (s.advanceIndex x).freeCount = s.freeCount := by unfold State.advanceIndex; split <;> rfl
@[simp] theorem State.advanceIndex_cfg (s : State) (x : Reg) : (s.advanceIndex x).cfg = s.cfg := by unfold State.advanceIndex; split <;> rfl

@[simp] theorem State.advanceIndex_i (s : State) (x : Reg) :
    (s.advanceIndex x).i = if s.cfg.indexAdvance then trunc16 (s.i.toNat + x.val + 1) else s.i := by
  unfold State.advanceIndex; split <;> rfl


@[simp] theorem State.beginCycle_fbUpdated (s : State) : s.beginCycle.fbUpdated = false := rfl
@[simp] theorem State.beginCycle_diagValid (s : State) : s.beginCycle.diagValid = false := rfl
@[simp] theorem State.beginCycle_input (s : State) : s.beginCycle.input = s.sampleInput.input := rfl
@[simp] theorem State.beginCycle_pending (s : State) : s.beginCycle.pending = s.sampleInput.pending := rfl
@[simp] theorem State.beginCycle_freeCount (s : State) : s.beginCycle.freeCount = s.sampleInput.freeCount := rfl

/-! ### storeBytes: only memory -/

@[simp] theorem State.storeBytes_v (s : State) (a : Nat) (bs : List Byte) : (s.storeBytes a bs).v = s.v := by
  induction bs generalizing s a with
  | nil => rfl
  | cons x rest ih => exact ih _ _
@[simp] theorem State.storeBytes_i (s : State) (a : Nat) (bs : List Byte) : (s.storeBytes a bs).i = s.i := by
  induction bs generalizing s a with
  | nil => rfl
  | cons x rest ih => exact ih _ _
@[simp] theorem State.storeBytes_pc (s : State) (a : Nat) (bs : List Byte) : (s.storeBytes a bs).pc = s.pc := by
  induction bs generalizing s a with
  | nil => rfl
  | cons x rest ih => exact ih _ _
@[simp] theorem State.storeBytes_stack (s : State) (a : Nat) (bs : List Byte) : (s.storeBytes a bs).stack = s.stack := by
  induction bs generalizing s a with
  | nil => rfl
  | cons x rest ih => exact ih _ _
@[simp] theorem State.storeBytes_sp (s : State) (a : Nat) (bs : List Byte) : (s.storeBytes a bs).sp = s.sp := by
  induction bs generalizing s a with
  | nil => rfl
  | cons x rest ih => exact ih _ _
@[simp] theorem State.storeBytes_dt (s : State) (a : Nat) (bs : List Byte) : (s.storeBytes a bs).dt = s.dt := by
  induction bs generalizing s a with
  | nil => rfl
  | cons x rest ih => exact ih _ _
@[simp] theorem State.storeBytes_st (s : State) (a : Nat) (bs : List Byte) : (s.storeBytes a bs).st = s.st := by
  induction bs generalizing s a with
  | nil => rfl
  | cons x rest ih => exact ih _ _
@[simp] theorem State.storeBytes_fb (s : State) (a : Nat) (bs : List Byte) : (s.storeBytes a bs).fb = s.fb := by
  induction bs generalizing s a with
  | nil => rfl
  | cons x rest ih => exact ih _ _
@[simp] theorem State.storeBytes_op (s : State) (a : Nat) (bs : List Byte) : (s.storeBytes a bs).op = s.op := by
  induction bs generalizing s a with
  | nil => rfl
  | cons x rest ih => exact ih _ _
@[simp] theorem State.storeBytes_halted (s : State) (a : Nat) (bs : List Byte) : (s.storeBytes a bs).halted = s.halted := by
  induction bs generalizing s a with
  | nil => rfl
  | cons x rest ih => exact ih _ _
@[simp] theorem State.storeBytes_fault (s : State) (a : Nat) (bs : List Byte) : (s.storeBytes a bs).fault = s.fault := by
  induction bs generalizing s a with
  | nil => rfl
  | cons x rest ih => exact ih _ _
@[simp] theorem State.storeBytes_fbUpdated (s : State) (a : Nat) (bs : List Byte) : (s.storeBytes a bs).fbUpdated = s.fbUpdated := by
  induction bs generalizing s a with
  | nil => rfl
  | cons x rest ih => exact ih _ _
@[simp] theorem State.storeBytes_soundOn (s : State) (a : Nat) (bs : List Byte) : (s.storeBytes a bs).soundOn = s.soundOn := by
  induction bs generalizing s a with
  | nil => rfl
  | cons x rest ih => exact ih _ _
@[simp] theorem State.storeBytes_diagValid (s : State) (a : Nat) (bs : List Byte) : (s.storeBytes a bs).diagValid = s.diagValid := by
  induction bs generalizing s a with
  | nil => rfl
  | cons x rest ih => exact ih _ _
@[simp] theorem State.storeBytes_diagAddr (s : State) (a : Nat) (bs : List Byte) : (s.storeBytes a bs).diagAddr = s.diagAddr := by
  induction bs generalizing s a with
  | nil => rfl
  | cons x rest ih => exact ih _ _
@[simp] theorem State.storeBytes_diagOpcode (s : State) (a : Nat) (bs : List Byte) : (s.storeBytes a bs).diagOpcode = s.diagOpcode := by
  induction bs generalizing s a with
  | nil => rfl
  | cons x rest ih => exact ih _ _
@[simp] theorem State.storeBytes_diagRecognized (s : State) (a : Nat) (bs : List Byte) : (s.storeBytes a bs).diagRecognized = s.diagRecognized := by
  induction bs generalizing s a with
  | nil => rfl
  | cons x rest ih => exact ih _ _
@[simp] theorem State.storeBytes_input (s : State) (a : Nat) (bs : List Byte) : (s.storeBytes a bs).input = s.input := by
  induction bs generalizing s a with
  | nil => rfl
  | cons x rest ih => exact ih _ _
@[simp] theorem State.storeBytes_pending (s : State) (a : Nat) (bs : List Byte) : (s.storeBytes a bs).pending = s.pending := by
  induction bs generalizing s a with
  | nil => rfl
  | cons x rest ih => exact ih _ _
@[simp] theorem State.storeBytes_freeCount (s : State) (a : Nat) (bs : List Byte) : (s.storeBytes a bs).freeCount = s.freeCount := by
  induction bs generalizing s a with
  | nil => rfl
  | cons x rest ih => exact ih _ _
@[simp] theorem State.storeBytes_cfg (s : State) (a : Nat) (bs : List Byte) : (s.storeBytes a bs).cfg = s.cfg := by
  induction bs generalizing s a with
  | nil => rfl
  | cons x rest ih => exact ih _ _

end Sys2Proof.Machine
end

