-- ==== Sys2Proof/Laws/Decode.lean ====
section
/-! SUPPORT. The fields of a packed word, for every format (30_encoding.md R81, R82), and a word from its bytes. -/

namespace Sys2Proof

/-- Appending a low part adds it to the shifted high part. -/
theorem toNat_append_add {m n : Nat} (hi : BitVec m) (lo : BitVec n) :
    (hi ++ lo).toNat = hi.toNat * 2 ^ n + lo.toNat := by
  rw [BitVec.toNat_append, Nat.shiftLeft_eq, Nat.mul_comm, Nat.two_pow_add_eq_or_of_lt lo.isLt]

theorem toNat_packNNN (f : BitVec 4) (nnn : Addr) : (packNNN f nnn).toNat = f.toNat * 4096 + nnn.toNat :=
  toNat_append_add f nnn

theorem toNat_packXNN (f : BitVec 4) (x : Reg) (nn : Byte) :
    (packXNN f x nn).toNat = f.toNat * 4096 + x.val * 256 + nn.toNat := by
  simp only [packXNN, toNat_append_add, BitVec.toNat_ofFin]
  omega

theorem toNat_packXYN (f : BitVec 4) (x y : Reg) (n : BitVec 4) :
    (packXYN f x y n).toNat = f.toNat * 4096 + x.val * 256 + y.val * 16 + n.toNat := by
  simp only [packXYN, toNat_append_add, BitVec.toNat_ofFin]
  omega

/-! ### The fields as numbers -/

theorem toNat_fieldF (w : Word) : (fieldF w).toNat = w.toNat / 4096 := by
  have := w.isLt
  simp only [fieldF, BitVec.extractLsb'_toNat, Nat.shiftRight_eq_div_pow]
  omega

theorem val_fieldX (w : Word) : (fieldX w).val = w.toNat / 256 % 16 := by
  change (w.extractLsb' 8 4).toNat = _
  simp only [BitVec.extractLsb'_toNat, Nat.shiftRight_eq_div_pow]

theorem val_fieldY (w : Word) : (fieldY w).val = w.toNat / 16 % 16 := by
  change (w.extractLsb' 4 4).toNat = _
  simp only [BitVec.extractLsb'_toNat, Nat.shiftRight_eq_div_pow]

theorem toNat_fieldN (w : Word) : (fieldN w).toNat = w.toNat % 16 := by
  simp only [fieldN, BitVec.extractLsb'_toNat, Nat.shiftRight_zero]

theorem toNat_fieldNN (w : Word) : (fieldNN w).toNat = w.toNat % 256 := by
  simp only [fieldNN, BitVec.extractLsb'_toNat, Nat.shiftRight_zero]

theorem toNat_fieldNNN (w : Word) : (fieldNNN w).toNat = w.toNat % 4096 := by
  simp only [fieldNNN, BitVec.extractLsb'_toNat, Nat.shiftRight_zero]

/-! ### The fields of a packed word -/

@[simp] theorem fieldF_packNNN (f : BitVec 4) (nnn : Addr) : fieldF (packNNN f nnn) = f := by
  apply BitVec.eq_of_toNat_eq
  have := nnn.isLt
  rw [toNat_fieldF, toNat_packNNN]; omega

@[simp] theorem fieldNNN_packNNN (f : BitVec 4) (nnn : Addr) : fieldNNN (packNNN f nnn) = nnn := by
  apply BitVec.eq_of_toNat_eq
  have := nnn.isLt
  rw [toNat_fieldNNN, toNat_packNNN]; omega

@[simp] theorem fieldF_packXNN (f : BitVec 4) (x : Reg) (nn : Byte) : fieldF (packXNN f x nn) = f := by
  apply BitVec.eq_of_toNat_eq
  have := nn.isLt; have := x.isLt
  rw [toNat_fieldF, toNat_packXNN]; omega

@[simp] theorem fieldX_packXNN (f : BitVec 4) (x : Reg) (nn : Byte) : fieldX (packXNN f x nn) = x := by
  apply Fin.ext
  have := nn.isLt; have := x.isLt
  rw [val_fieldX, toNat_packXNN]; omega

@[simp] theorem fieldNN_packXNN (f : BitVec 4) (x : Reg) (nn : Byte) : fieldNN (packXNN f x nn) = nn := by
  apply BitVec.eq_of_toNat_eq
  have := nn.isLt; have := x.isLt
  rw [toNat_fieldNN, toNat_packXNN]; omega

@[simp] theorem fieldF_packXYN (f : BitVec 4) (x y : Reg) (n : BitVec 4) : fieldF (packXYN f x y n) = f := by
  apply BitVec.eq_of_toNat_eq
  have := n.isLt; have := x.isLt; have := y.isLt
  rw [toNat_fieldF, toNat_packXYN]; omega

@[simp] theorem fieldX_packXYN (f : BitVec 4) (x y : Reg) (n : BitVec 4) : fieldX (packXYN f x y n) = x := by
  apply Fin.ext
  have := n.isLt; have := x.isLt; have := y.isLt
  rw [val_fieldX, toNat_packXYN]; omega

@[simp] theorem fieldY_packXYN (f : BitVec 4) (x y : Reg) (n : BitVec 4) : fieldY (packXYN f x y n) = y := by
  apply Fin.ext
  have := n.isLt; have := x.isLt; have := y.isLt
  rw [val_fieldY, toNat_packXYN]; omega

@[simp] theorem fieldN_packXYN (f : BitVec 4) (x y : Reg) (n : BitVec 4) : fieldN (packXYN f x y n) = n := by
  apply BitVec.eq_of_toNat_eq
  have := n.isLt; have := x.isLt; have := y.isLt
  rw [toNat_fieldN, toNat_packXYN]; omega

/-! ### Decode, family by family (30_encoding.md R85) -/

section Family

variable (cfg : Config) {w : Word}

theorem decodeWord_family0 (h : fieldF w = 0x0#4) : decodeWord cfg w = .ok (decodeFamily0 cfg w) := by
  simp only [decodeWord, h]

theorem decodeWord_family1 (h : fieldF w = 0x1#4) : decodeWord cfg w = .ok (.jp (fieldNNN w)) := by
  simp only [decodeWord, h]

theorem decodeWord_family2 (h : fieldF w = 0x2#4) : decodeWord cfg w = .ok (.call (fieldNNN w)) := by
  simp only [decodeWord, h]

theorem decodeWord_family3 (h : fieldF w = 0x3#4) : decodeWord cfg w = .ok (.seImm (fieldX w) (fieldNN w)) := by
  simp only [decodeWord, h]

theorem decodeWord_family4 (h : fieldF w = 0x4#4) : decodeWord cfg w = .ok (.sneImm (fieldX w) (fieldNN w)) := by
  simp only [decodeWord, h]

theorem decodeWord_family5 (h : fieldF w = 0x5#4) : decodeWord cfg w = decodeFamily5 cfg w := by
  simp only [decodeWord, h]

theorem decodeWord_family6 (h : fieldF w = 0x6#4) : decodeWord cfg w = .ok (.ldImm (fieldX w) (fieldNN w)) := by
  simp only [decodeWord, h]

theorem decodeWord_family7 (h : fieldF w = 0x7#4) : decodeWord cfg w = .ok (.addImm (fieldX w) (fieldNN w)) := by
  simp only [decodeWord, h]

theorem decodeWord_family8 (h : fieldF w = 0x8#4) : decodeWord cfg w = decodeFamily8 w := by
  simp only [decodeWord, h]

theorem decodeWord_family9 (h : fieldF w = 0x9#4) : decodeWord cfg w = decodeFamily9 cfg w := by
  simp only [decodeWord, h]

theorem decodeWord_familyA (h : fieldF w = 0xA#4) : decodeWord cfg w = .ok (.ldI (fieldNNN w)) := by
  simp only [decodeWord, h]

theorem decodeWord_familyB (h : fieldF w = 0xB#4) : decodeWord cfg w = .ok (.jpV0 (fieldNNN w)) := by
  simp only [decodeWord, h]

theorem decodeWord_familyC (h : fieldF w = 0xC#4) : decodeWord cfg w = .ok (.rnd (fieldX w) (fieldNN w)) := by
  simp only [decodeWord, h]

theorem decodeWord_familyD (h : fieldF w = 0xD#4) : decodeWord cfg w = .ok (.drw (fieldX w) (fieldY w) (fieldN w)) := by
  simp only [decodeWord, h]

theorem decodeWord_familyE (h : fieldF w = 0xE#4) : decodeWord cfg w = decodeFamilyE w := by
  simp only [decodeWord, h]

theorem decodeWord_familyF (h : fieldF w = 0xF#4) : decodeWord cfg w = decodeFamilyF w := by
  simp [decodeWord, h]

end Family

/-! ### Bytes -/

theorem toNat_joinBytes (hi lo : Byte) : (joinBytes hi lo).toNat = hi.toNat * 256 + lo.toNat :=
  toNat_append_add hi lo

/-- A word is made of its high byte and its low byte. -/
@[simp] theorem joinBytes_highByte_lowByte (w : Word) : joinBytes (highByte w) (lowByte w) = w := by
  apply BitVec.eq_of_toNat_eq
  have := w.isLt
  simp only [toNat_joinBytes, highByte, lowByte, BitVec.extractLsb'_toNat, Nat.shiftRight_eq_div_pow]
  omega

end Sys2Proof
end

