-- ==== Sys2Proof/Laws/Memory.lean ====
section
/-! SUPPORT. Memory: a read after a write, and the canonical form, which every memory operation keeps
(20_memory.md R57, R63). -/

namespace Sys2Proof.Machine

variable (font : Vector Byte fontSize)

@[simp] theorem Memory.read_nil (a : Nat) : Memory.read font [] a = resetByte font a := rfl

theorem Memory.read_cons (b : Nat) (u : Byte) (rest : Memory) (a : Nat) :
    Memory.read font ((b, u) :: rest) a = if b = a then u else Memory.read font rest a := rfl

theorem Memory.wfFrom_cons {lo a : Nat} {x : Byte} {rest : Memory} :
    Memory.wfFrom font lo ((a, x) :: rest) = true ↔
      lo ≤ a ∧ a < memSize ∧ x ≠ resetByte font a ∧ Memory.wfFrom font (a + 1) rest = true := by
  simp [Memory.wfFrom, and_assoc]

/-- The form from an address on holds from any lower address on. -/
theorem Memory.wfFrom_mono {lo lo' : Nat} {m : Memory} (h : Memory.wfFrom font lo m = true) (hle : lo' ≤ lo) :
    Memory.wfFrom font lo' m = true := by
  cases m with
  | nil => rfl
  | cons c rest =>
    rw [Memory.wfFrom_cons] at h ⊢
    exact ⟨hle.trans h.1, h.2⟩

/-- Below its first address a memory in canonical form reads as its reset contents. -/
theorem Memory.read_of_lt {lo a : Nat} {m : Memory} (h : Memory.wfFrom font lo m = true) (ha : a < lo) :
    Memory.read font m a = resetByte font a := by
  induction m generalizing lo with
  | nil => rfl
  | cons c rest ih =>
    obtain ⟨b, u⟩ := c
    rw [Memory.wfFrom_cons] at h
    rw [Memory.read_cons, if_neg (by omega)]
    exact ih h.2.2.2 (by omega)

/-- A write keeps the canonical form. -/
theorem Memory.write_wfFrom {lo a : Nat} {x : Byte} {m : Memory} (h : Memory.wfFrom font lo m = true)
    (hlo : lo ≤ a) (ha : a < memSize) : Memory.wfFrom font lo (Memory.write font m a x) = true := by
  induction m generalizing lo with
  | nil =>
    simp only [Memory.write]
    split
    · rfl
    · rename_i hx
      exact (Memory.wfFrom_cons font).2 ⟨hlo, ha, hx, rfl⟩
  | cons c rest ih =>
    obtain ⟨b, u⟩ := c
    obtain ⟨h1, h2, h3, h4⟩ := (Memory.wfFrom_cons font).1 h
    simp only [Memory.write]
    split
    · split
      · exact h
      · rename_i hab hx
        exact (Memory.wfFrom_cons font).2 ⟨hlo, ha, hx, (Memory.wfFrom_cons font).2 ⟨by omega, h2, h3, h4⟩⟩
    · split
      · rename_i hab hbe
        split
        · exact Memory.wfFrom_mono font h4 (by omega)
        · rename_i hx
          subst hbe
          exact (Memory.wfFrom_cons font).2 ⟨h1, h2, hx, h4⟩
      · exact (Memory.wfFrom_cons font).2 ⟨h1, h2, h3, ih h4 (by omega)⟩

theorem Memory.write_wf {a : Nat} {x : Byte} {m : Memory} (h : m.wf font = true) (ha : a < memSize) :
    (m.write font a x).wf font = true :=
  Memory.write_wfFrom font h (Nat.zero_le _) ha

/-- A read after a write of a memory in canonical form from `lo` on. -/
theorem Memory.read_write_of_wfFrom {lo a b : Nat} {x : Byte} {m : Memory} (h : Memory.wfFrom font lo m = true) :
    Memory.read font (Memory.write font m a x) b = if a = b then x else Memory.read font m b := by
  induction m generalizing lo with
  | nil =>
    simp only [Memory.write]
    split
    · rename_i hx
      split
      · rename_i hab; subst hab; exact hx.symm
      · rfl
    · exact Memory.read_cons font a x [] b
  | cons c rest ih =>
    obtain ⟨d, u⟩ := c
    obtain ⟨h1, h2, h3, h4⟩ := (Memory.wfFrom_cons font).1 h
    simp only [Memory.write]
    split
    · rename_i had
      split
      · rename_i hx
        split
        · rename_i hab; subst hab
          have := Memory.read_of_lt font ((Memory.wfFrom_cons font).2 ⟨le_refl d, h2, h3, h4⟩) had
          rw [this, hx]
        · rfl
      · rw [Memory.read_cons]
    · split
      · rename_i had
        subst had
        split
        · rename_i hx
          split
          · rename_i hab; subst hab
            rw [Memory.read_of_lt font h4 (by omega), hx]
          · rename_i hab
            rw [Memory.read_cons, if_neg hab]
        · rw [Memory.read_cons, Memory.read_cons]
          split <;> rfl
      · rename_i had hne
        rw [Memory.read_cons, Memory.read_cons, ih h4]
        by_cases hdb : d = b
        · have : ¬ a = b := fun e => hne (e.trans hdb.symm)
          simp [hdb, this]
        · simp [hdb]

end Sys2Proof.Machine
end

