-- ==== Sys2Proof/Laws/Ops.lean ====
section
/-! SUPPORT. What each shared operation does, said once: registers, bytes of memory, the call stack, the timers, and the
outcome of every instruction and step. -/

namespace Sys2Proof.Machine

/-! ### Registers -/

theorem State.reg_setReg (s : State) (x r : Reg) (b : Byte) :
    (s.setReg x b).reg r = if r = x then b else s.reg r := by
  simp only [State.reg, State.setReg, Vector.getElem_set, Fin.val_eq_val, eq_comm]

theorem State.reg_setReg_self (s : State) (x : Reg) (b : Byte) : (s.setReg x b).reg x = b := by
  simp [State.reg_setReg]

theorem State.reg_setReg_ne (s : State) {x r : Reg} (b : Byte) (h : r ≠ x) : (s.setReg x b).reg r = s.reg r := by
  simp [State.reg_setReg, h]

theorem State.reg_setFlag (s : State) (c : Bool) (r : Reg) :
    (s.setFlag c).reg r = if r = vf then (if c then 1 else 0) else s.reg r := State.reg_setReg s vf r _

/-- The flag is VF's final value; V[x] holds the result unless X = F. -/
theorem State.reg_setRegFlag (s : State) (x : Reg) (p : Byte × Bool) (r : Reg) :
    (s.setRegFlag x p).reg r = if r = vf then (if p.2 then 1 else 0) else if r = x then p.1 else s.reg r := by
  simp only [State.setRegFlag, State.reg_setFlag, State.reg_setReg]

/-- A state that differs only in its registers reads the rest alike. -/
theorem State.reg_eq_of_v_eq {s t : State} (h : t.v = s.v) (r : Reg) : t.reg r = s.reg r := by
  simp only [State.reg, h]

theorem State.v_ext {s t : State} (h : ∀ r, t.reg r = s.reg r) : t.v = s.v :=
  Vector.ext fun k hk => h ⟨k, hk⟩

/-! ### Bytes of memory -/

theorem State.readByte_mod (s : State) (a : Nat) : s.readByte (a % memSize) = s.readByte a := by
  simp [State.readByte]

theorem State.readByte_congr (s : State) {a b : Nat} (h : a % memSize = b % memSize) : s.readByte a = s.readByte b := by
  simp only [State.readByte, h]

theorem State.readByte_of_mem_eq {s t : State} (hm : t.mem = s.mem) (hc : t.cfg = s.cfg) (a : Nat) :
    t.readByte a = s.readByte a := by
  simp only [State.readByte, hm, hc]

theorem State.writeByte_wf {s : State} (h : s.mem.wf s.cfg.font = true) (a : Nat) (x : Byte) :
    (s.writeByte a x).mem.wf s.cfg.font = true :=
  Memory.write_wf _ h (Nat.mod_lt _ (by decide))

theorem State.readByte_writeByte {s : State} (h : s.mem.wf s.cfg.font = true) (a b : Nat) (x : Byte) :
    (s.writeByte a x).readByte b = if a % memSize = b % memSize then x else s.readByte b :=
  Memory.read_write_of_wfFrom _ h

/-- Storing bytes keeps the canonical form. -/
theorem State.storeBytes_wf {s : State} (h : s.mem.wf s.cfg.font = true) (a : Nat) (bs : List Byte) :
    (s.storeBytes a bs).mem.wf s.cfg.font = true := by
  induction bs generalizing s a with
  | nil => exact h
  | cons x rest ih => exact ih (s := s.writeByte a x) (State.writeByte_wf h a x) (a + 1)

/-- What a store leaves in memory depends on memory, the configuration, and the stored bytes alone. -/
theorem State.storeBytes_mem_congr {s t : State} (hm : t.mem = s.mem) (hc : t.cfg = s.cfg) (a : Nat)
    (bs : List Byte) : (t.storeBytes a bs).mem = (s.storeBytes a bs).mem := by
  induction bs generalizing s t a with
  | nil => exact hm
  | cons x rest ih =>
    exact ih (s := s.writeByte a x) (t := t.writeByte a x)
      (by simp only [State.writeByte_mem, hm, hc]) hc (a + 1)

/-- A byte outside the stored block reads as before. -/
theorem State.readByte_storeBytes_outside {s : State} (h : s.mem.wf s.cfg.font = true) (a : Nat) (bs : List Byte)
    {b : Nat} (hb : ¬ inBlock a bs.length b) : (s.storeBytes a bs).readByte b = s.readByte b := by
  induction bs generalizing s a with
  | nil => rfl
  | cons x rest ih =>
    have h0 : ¬ a % memSize = b % memSize := fun e => hb ⟨0, by simp, e.symm⟩
    have hr : ¬ inBlock (a + 1) rest.length b := fun ⟨k, hk, e⟩ =>
      hb ⟨k + 1, by simpa using hk, by rw [e]; congr 1; omega⟩
    rw [State.storeBytes, ih (s := s.writeByte a x) (State.writeByte_wf h a x) (a + 1) hr,
      State.readByte_writeByte h, if_neg h0]

/-- A stored byte reads back, if the block is no longer than memory. -/
theorem State.readByte_storeBytes_inside {s : State} (h : s.mem.wf s.cfg.font = true) (a : Nat) (bs : List Byte)
    (hlen : bs.length ≤ memSize) {k : Nat} (hk : k < bs.length) :
    (s.storeBytes a bs).readByte (a + k) = bs[k] := by
  induction bs generalizing s a k with
  | nil => exact absurd hk (Nat.not_lt_zero k)
  | cons x rest ih =>
    simp only [List.length_cons] at hlen hk
    rw [State.storeBytes]
    cases k with
    | zero =>
      rw [State.readByte_storeBytes_outside (s := s.writeByte a x) (State.writeByte_wf h a x),
        State.readByte_writeByte h]
      · simp
      · rintro ⟨j, hj, e⟩
        simp only [memSize] at hlen e
        omega
    | succ k =>
      have := ih (s := s.writeByte a x) (State.writeByte_wf h a x) (a + 1) (by omega) (k := k) (by omega)
      rw [show a + (k + 1) = a + 1 + k by omega, this]
      rfl

/-! ### The call stack -/

theorem State.push_of_lt (s : State) (x : Word) (h : s.sp.val < stackDepth) :
    s.push x = .ok { s with stack := s.stack.set s.sp.val x, sp := ⟨s.sp.val + 1, Nat.succ_lt_succ h⟩ } := by
  simp only [State.push, dif_pos h]

theorem State.push_of_full (s : State) (x : Word) (h : ¬ s.sp.val < stackDepth) : s.push x = .error .stackOverflow := by
  simp only [State.push, dif_neg h]

theorem State.pop_of_pos (s : State) (h : 0 < s.sp.val) :
    s.pop = .ok (s.stack[s.sp.val - 1], { s with sp := ⟨s.sp.val - 1, by omega⟩ }) := by
  simp only [State.pop, dif_pos h]

theorem State.pop_of_empty (s : State) (h : ¬ 0 < s.sp.val) : s.pop = .error .stackUnderflow := by
  simp only [State.pop, dif_neg h]

/-- What CALL does. -/
theorem execCall_cases (nnn : Addr) (s : State) :
    (∃ h : s.sp.val < stackDepth, execCall nnn s = .next
      { s with stack := s.stack.set s.sp.val s.pc, sp := ⟨s.sp.val + 1, Nat.succ_lt_succ h⟩, pc := zext16 nnn }) ∨
    (s.sp.val = stackDepth ∧ execCall nnn s = .next (s.takeFatal .stackOverflow)) := by
  by_cases h : s.sp.val < stackDepth
  · exact .inl ⟨h, by simp only [execCall, State.push_of_lt s s.pc h, Except.map, State.conclude, State.setPc]⟩
  · exact .inr ⟨by omega, by simp only [execCall, State.push_of_full s s.pc h, Except.map, State.conclude]⟩

/-- What RET does. -/
theorem execRet_cases (s : State) :
    (∃ h : 0 < s.sp.val, execRet s = .next
      { s with sp := ⟨s.sp.val - 1, by omega⟩, pc := s.stack[s.sp.val - 1] }) ∨
    (s.sp.val = 0 ∧ execRet s = .next (s.takeFatal .stackUnderflow)) := by
  by_cases h : 0 < s.sp.val
  · exact .inl ⟨h, by simp only [execRet, State.pop_of_pos s h, Except.map, State.conclude, State.setPc]⟩
  · exact .inr ⟨by omega, by simp only [execRet, State.pop_of_empty s h, Except.map, State.conclude]⟩

/-! ### Timers -/

/-- A timer loses `ticks`, clamped at zero. -/
theorem timerAfter_toNat (t : Byte) (ticks : Nat) : (timerAfter t ticks).toNat = t.toNat - ticks := by
  unfold timerAfter
  split
  · rename_i h; subst h; simp
  · have := t.isLt
    simp only [trunc8, BitVec.toNat_ofNat]
    omega

theorem timerAfter_ne_zero (t : Byte) (ticks : Nat) : (timerAfter t ticks != 0) = true ↔ t.toNat - ticks ≠ 0 := by
  rw [← timerAfter_toNat, bne_iff_ne, ne_eq, ne_eq, ← BitVec.toNat_inj]
  rfl

/-! ### Instructions and steps -/

/-- Every instruction answers a next state (40_cycle.md R115). -/
theorem exec_answers_next (i : Instr) (s : State) : ∃ t, exec i s = .next t := by
  cases i
  case ret => exact (execRet_cases s).elim (fun ⟨_, e⟩ => ⟨_, e⟩) (fun ⟨_, e⟩ => ⟨_, e⟩)
  case call nnn => exact (execCall_cases nnn s).elim (fun ⟨_, e⟩ => ⟨_, e⟩) (fun ⟨_, e⟩ => ⟨_, e⟩)
  all_goals exact ⟨_, rfl⟩

@[simp] theorem settle_next (t : State) : settle (.next t) = .next (if t.halted then t else t.endCycle) := rfl

theorem step_of_halted {s : State} (h : s.halted = true) : step s = .next s.beginCycle := by
  simp only [step, h, if_true]

@[simp] theorem State.beginCycle_fetchWord (s : State) : s.beginCycle.fetchWord = s.fetchWord := by
  simp only [State.fetchWord, State.readByte, State.beginCycle_mem, State.beginCycle_cfg, State.beginCycle_pc]

/-- A running step of a word that is an instruction. -/
theorem step_of_decoded {s : State} {i : Instr} (h : s.halted = false) (hd : decodeWord s.cfg s.fetchWord = .ok i) :
    step s = settle (exec i (s.beginCycle.fetch.report true)) := by
  simp only [step, h, State.beginCycle_fetchWord, hd, Bool.false_eq_true, if_false]

/-- A running step of an unrecognised word. -/
theorem step_of_unrecognized {s : State} {e : Reject} (h : s.halted = false)
    (hd : decodeWord s.cfg s.fetchWord = .error e) :
    step s = .next (s.beginCycle.fetch.report false).endCycle := by
  simp [step, h, hd, execUnrecognized]

/-- Everything a step can do. -/
theorem step_cases {s t : State} (h : step s = .next t) :
    (s.halted = true ∧ t = s.beginCycle) ∨
    (s.halted = false ∧ (∃ e, decodeWord s.cfg s.fetchWord = .error e) ∧
      t = (s.beginCycle.fetch.report false).endCycle) ∨
    (s.halted = false ∧ ∃ i u, decodeWord s.cfg s.fetchWord = .ok i ∧
      exec i (s.beginCycle.fetch.report true) = .next u ∧ t = if u.halted then u else u.endCycle) := by
  cases hh : s.halted with
  | true =>
    rw [step_of_halted hh] at h
    exact .inl ⟨rfl, (Host.Outcome.next.inj h).symm⟩
  | false =>
    cases hd : decodeWord s.cfg s.fetchWord with
    | error e =>
      rw [step_of_unrecognized hh hd] at h
      exact .inr (.inl ⟨rfl, ⟨e, rfl⟩, (Host.Outcome.next.inj h).symm⟩)
    | ok i =>
      obtain ⟨u, hu⟩ := exec_answers_next i (s.beginCycle.fetch.report true)
      rw [step_of_decoded hh hd, hu, settle_next] at h
      exact .inr (.inr ⟨rfl, i, u, rfl, hu, (Host.Outcome.next.inj h).symm⟩)

end Sys2Proof.Machine
end

