-- ==== Sys2Proof/Laws/Draw.lean ====
section
/-! SUPPORT. The framebuffer cell by cell, and what drawing a sprite does to every cell and to the collision flag
(44_display.md R201, R202). -/

namespace Sys2Proof.Machine

/-! ### Cells -/

theorem Framebuffer.cell_of_lt (fb : Framebuffer) {x y : Nat} (hx : x < screenW) (hy : y < screenH) :
    fb.cell x y = fb[x][y] := by
  simp only [Framebuffer.cell, dif_pos (And.intro hx hy)]

@[simp] theorem Framebuffer.cell_blank (x y : Nat) : Framebuffer.blank.cell x y = false := by
  unfold Framebuffer.cell Framebuffer.blank
  split <;> simp

theorem Framebuffer.ext_cell {a b : Framebuffer} (h : ∀ x y, x < screenW → y < screenH → a.cell x y = b.cell x y) :
    a = b := by
  refine Vector.ext fun x hx => Vector.ext fun y hy => ?_
  have := h x y hx hy
  rwa [Framebuffer.cell_of_lt a hx hy, Framebuffer.cell_of_lt b hx hy] at this

/-- Toggling a place toggles that cell and no other. -/
theorem Framebuffer.cell_toggle (fb : Framebuffer) (px py : Nat) {x y : Nat} (hx : x < screenW) (hy : y < screenH) :
    (fb.toggle px py).cell x y = (fb.cell x y ^^ decide (px = x ∧ py = y)) := by
  rw [Framebuffer.cell_of_lt _ hx hy, Framebuffer.cell_of_lt _ hx hy]
  unfold Framebuffer.toggle
  split
  · simp only [Vector.getElem_set]
    by_cases h1 : px = x
    · subst h1
      by_cases h2 : py = y
      · subst h2; simp
      · simp [h2]
    · simp [h1]
  · rename_i hn
    have : ¬ (px = x ∧ py = y) := by rintro ⟨rfl, rfl⟩; exact hn ⟨hx, hy⟩
    simp [this]

/-! ### One row -/

/-- The place (x, y) is under a set bit among the `k` columns from `col` on of a sprite row at (x0, py). -/
def colsCover (bits : Byte) (x0 py k col x y : Nat) : Prop :=
  py = y ∧ ∃ c, col ≤ c ∧ c < col + k ∧ x0 + c = x ∧ bits.getLsbD (7 - c) = true

theorem colsCover_zero (bits : Byte) (x0 py col x y : Nat) : ¬ colsCover bits x0 py 0 col x y := by
  rintro ⟨_, c, h1, h2, _⟩; omega

theorem colsCover_succ (bits : Byte) (x0 py k col x y : Nat) :
    colsCover bits x0 py (k + 1) col x y ↔
      (py = y ∧ x0 + col = x ∧ bits.getLsbD (7 - col) = true) ∨ colsCover bits x0 py k (col + 1) x y := by
  constructor
  · rintro ⟨hp, c, h1, h2, h3, h4⟩
    rcases Nat.eq_or_lt_of_le h1 with rfl | hlt
    · exact .inl ⟨hp, h3, h4⟩
    · exact .inr ⟨hp, c, hlt, by omega, h3, h4⟩
  · rintro (⟨hp, h3, h4⟩ | ⟨hp, c, h1, h2, h3, h4⟩)
    · exact ⟨hp, col, le_refl _, by omega, h3, h4⟩
    · exact ⟨hp, c, by omega, by omega, h3, h4⟩

open Classical in
/-- After some columns of a row: the covered cells are toggled, and the flag is set if one of them was on. -/
theorem drawCols_spec (bits : Byte) (x0 py k : Nat) :
    ∀ (col : Nat) (d : Draw),
      (∀ x y, x < screenW → y < screenH →
        (drawCols bits x0 py k col d).1.cell x y = (d.1.cell x y ^^ decide (colsCover bits x0 py k col x y))) ∧
      ((drawCols bits x0 py k col d).2 = true ↔ d.2 = true ∨
        ∃ x y, x < screenW ∧ y < screenH ∧ colsCover bits x0 py k col x y ∧ d.1.cell x y = true) := by
  induction k with
  | zero =>
    intro col d
    refine ⟨fun x y _ _ => ?_, ⟨.inl, fun h => h.elim id ?_⟩⟩
    · simp [drawCols, colsCover_zero]
    · rintro ⟨x, y, _, _, hc, _⟩; exact (colsCover_zero _ _ _ _ _ _ hc).elim
  | succ k ih =>
    intro col d
    have hnext : ∀ x y, py = y → x0 + col = x → ¬ colsCover bits x0 py k (col + 1) x y := by
      rintro x y _ h3 ⟨_, c, h1, _, h4, _⟩; omega
    by_cases hb : bits.getLsbD (7 - col) = true
    · obtain ⟨ih1, ih2⟩ := ih (col + 1) (drawCell d (x0 + col) py)
      simp only [drawCols, hb, if_true]
      have hcell : ∀ x y, x < screenW → y < screenH →
          (drawCell d (x0 + col) py).1.cell x y = (d.1.cell x y ^^ decide (x0 + col = x ∧ py = y)) :=
        fun x y hx hy => Framebuffer.cell_toggle d.1 _ _ hx hy
      constructor
      · intro x y hx hy
        rw [ih1 x y hx hy, hcell x y hx hy]
        by_cases hp : py = y ∧ x0 + col = x
        · have := hnext x y hp.1 hp.2
          simp [colsCover_succ, hp.1, hp.2, hb, hp.1 ▸ this]
        · have h' : ¬ (x0 + col = x ∧ py = y) := fun h => hp h.symm
          have h'' : ¬ (py = y ∧ x0 + col = x ∧ bits.getLsbD (7 - col) = true) := fun h => hp ⟨h.1, h.2.1⟩
          rw [decide_eq_false h', Bool.xor_false]
          congr 1
          simp [colsCover_succ, h'']
      · rw [ih2]
        constructor
        · rintro (h | ⟨x, y, hx, hy, hc, hon⟩)
          · simp only [drawCell, Bool.or_eq_true] at h
            rcases h with h | h
            · exact .inl h
            · have hlt : x0 + col < screenW ∧ py < screenH := by
                by_contra hn
                simp only [Framebuffer.cell, dif_neg hn, Bool.false_eq_true] at h
              exact .inr ⟨_, _, hlt.1, hlt.2, (colsCover_succ ..).2 (.inl ⟨rfl, rfl, hb⟩), h⟩
          · refine .inr ⟨x, y, hx, hy, (colsCover_succ ..).2 (.inr hc), ?_⟩
            rw [hcell x y hx hy] at hon
            have h' : ¬ (x0 + col = x ∧ py = y) := fun h => hnext x y h.2 h.1 hc
            simpa [h'] using hon
        · rintro (h | ⟨x, y, hx, hy, hc, hon⟩)
          · exact .inl (by simp [drawCell, h])
          · rcases (colsCover_succ ..).1 hc with ⟨rfl, rfl, _⟩ | hc
            · exact .inl (by simp [drawCell, hon])
            · refine .inr ⟨x, y, hx, hy, hc, ?_⟩
              have h' : ¬ (x0 + col = x ∧ py = y) := fun h => hnext x y h.2 h.1 hc
              rw [hcell x y hx hy]; simp [h', hon]
    · obtain ⟨ih1, ih2⟩ := ih (col + 1) d
      have hcov : ∀ x y, colsCover bits x0 py (k + 1) col x y ↔ colsCover bits x0 py k (col + 1) x y := fun x y => by
        rw [colsCover_succ]; exact ⟨fun h => h.elim (fun h => absurd h.2.2 hb) id, .inr⟩
      simp only [drawCols, hb, Bool.false_eq_true, if_false, hcov]
      exact ⟨ih1, ih2⟩

/-! ### A sprite -/

/-- The place (x, y) is under a set bit of the sprite whose rows are `bs`, drawn with its corner at (x0, y0). -/
def rowsCover (x0 : Nat) (bs : List Byte) (y0 x y : Nat) : Prop :=
  x0 ≤ x ∧ x < x0 + 8 ∧ y0 ≤ y ∧ ∃ h : y - y0 < bs.length, bs[y - y0].getLsbD (7 - (x - x0)) = true

theorem rowsCover_nil (x0 y0 x y : Nat) : ¬ rowsCover x0 [] y0 x y := by
  rintro ⟨_, _, _, h, _⟩; simp at h

theorem rowsCover_cons (x0 : Nat) (b : Byte) (bs : List Byte) (y0 x y : Nat) :
    rowsCover x0 (b :: bs) y0 x y ↔ colsCover b x0 y0 8 0 x y ∨ rowsCover x0 bs (y0 + 1) x y := by
  constructor
  · rintro ⟨h1, h2, h3, hl, h4⟩
    rcases Nat.eq_or_lt_of_le h3 with rfl | hlt
    · exact .inl ⟨rfl, x - x0, by omega, by omega, by omega, by simpa using h4⟩
    · refine .inr ⟨h1, h2, hlt, ?_⟩
      have e : y - y0 = (y - (y0 + 1)) + 1 := by omega
      simp only [e, List.length_cons, List.getElem_cons_succ] at hl h4
      exact ⟨by omega, h4⟩
  · rintro (⟨rfl, c, _, h2, rfl, h4⟩ | ⟨h1, h2, h3, hl, h4⟩)
    · exact ⟨by omega, by omega, le_refl _, by simp, by simpa using h4⟩
    · have e : y - y0 = (y - (y0 + 1)) + 1 := by omega
      refine ⟨h1, h2, by omega, by simp only [List.length_cons]; omega, ?_⟩
      simp only [e, List.getElem_cons_succ]
      exact h4

open Classical in
/-- After a sprite: the covered cells are toggled, and the flag is set if one of them was on. -/
theorem drawSprite_spec (x0 : Nat) (bs : List Byte) :
    ∀ (y0 : Nat) (d : Draw),
      (∀ x y, x < screenW → y < screenH →
        (drawSprite x0 bs y0 d).1.cell x y = (d.1.cell x y ^^ decide (rowsCover x0 bs y0 x y))) ∧
      ((drawSprite x0 bs y0 d).2 = true ↔ d.2 = true ∨
        ∃ x y, x < screenW ∧ y < screenH ∧ rowsCover x0 bs y0 x y ∧ d.1.cell x y = true) := by
  induction bs with
  | nil =>
    intro y0 d
    refine ⟨fun x y _ _ => ?_, ⟨.inl, fun h => h.elim id ?_⟩⟩
    · simp [drawSprite, rowsCover_nil]
    · rintro ⟨x, y, _, _, hc, _⟩; exact (rowsCover_nil _ _ _ _ hc).elim
  | cons b bs ih =>
    intro y0 d
    obtain ⟨r1, r2⟩ := drawCols_spec b x0 y0 8 0 d
    obtain ⟨ih1, ih2⟩ := ih (y0 + 1) (drawRow b x0 y0 d)
    have hdis : ∀ x y, colsCover b x0 y0 8 0 x y → ¬ rowsCover x0 bs (y0 + 1) x y := by
      rintro x y ⟨rfl, _⟩ ⟨_, _, h, _⟩; omega
    simp only [drawSprite]
    constructor
    · intro x y hx hy
      rw [ih1 x y hx hy, drawRow, r1 x y hx hy, Bool.xor_assoc]
      congr 1
      by_cases hc : colsCover b x0 y0 8 0 x y
      · simp [rowsCover_cons, hc, hdis x y hc]
      · simp [rowsCover_cons, hc]
    · rw [ih2]
      constructor
      · rintro (h | ⟨x, y, hx, hy, hc, hon⟩)
        · rcases r2.1 h with h | ⟨x, y, hx, hy, hc, hon⟩
          · exact .inl h
          · exact .inr ⟨x, y, hx, hy, (rowsCover_cons ..).2 (.inl hc), hon⟩
        · refine .inr ⟨x, y, hx, hy, (rowsCover_cons ..).2 (.inr hc), ?_⟩
          rw [drawRow, r1 x y hx hy] at hon
          have h' : ¬ colsCover b x0 y0 8 0 x y := fun h => hdis x y h hc
          simpa [h'] using hon
      · rintro (h | ⟨x, y, hx, hy, hc, hon⟩)
        · exact .inl (r2.2 (.inl h))
        · rcases (rowsCover_cons ..).1 hc with hc | hc
          · exact .inl (r2.2 (.inr ⟨x, y, hx, hy, hc, hon⟩))
          · refine .inr ⟨x, y, hx, hy, hc, ?_⟩
            have h' : ¬ colsCover b x0 y0 8 0 x y := fun h => hdis x y h hc
            rw [drawRow, r1 x y hx hy]; simp [h', hon]

/-- A covered cell is toggled. -/
theorem drawSprite_cell_of_covered {x0 : Nat} {bs : List Byte} {y0 : Nat} {d : Draw} {x y : Nat} (hx : x < screenW)
    (hy : y < screenH) (h : rowsCover x0 bs y0 x y) : (drawSprite x0 bs y0 d).1.cell x y = !d.1.cell x y := by
  simp [(drawSprite_spec x0 bs y0 d).1 x y hx hy, h]

/-- Any other cell stays. -/
theorem drawSprite_cell_of_not_covered {x0 : Nat} {bs : List Byte} {y0 : Nat} {d : Draw} {x y : Nat} (hx : x < screenW)
    (hy : y < screenH) (h : ¬ rowsCover x0 bs y0 x y) : (drawSprite x0 bs y0 d).1.cell x y = d.1.cell x y := by
  simp [(drawSprite_spec x0 bs y0 d).1 x y hx hy, h]

/-- The rows DRW draws cover the cells that the sprite at I covers. -/
theorem rowsCover_spriteBytes (s : State) (x0 y0 n x y : Nat) :
    rowsCover x0 (s.spriteBytes n) y0 x y ↔ spriteCovers s x0 y0 n x y := by
  unfold rowsCover spriteCovers
  constructor
  · rintro ⟨h1, h2, h3, hl, h4⟩
    simp only [State.spriteBytes, List.length_map, List.length_range] at hl
    simp only [State.spriteBytes, List.getElem_map, List.getElem_range] at h4
    exact ⟨h1, h2, h3, by omega, h4⟩
  · rintro ⟨h1, h2, h3, h4, h5⟩
    refine ⟨h1, h2, h3, by simp only [State.spriteBytes, List.length_map, List.length_range]; omega, ?_⟩
    simpa only [State.spriteBytes, List.getElem_map, List.getElem_range] using h5

theorem spriteX_eq (b : Byte) : spriteX b = b.toNat % 64 := by
  simp only [spriteX, BitVec.toNat_and]
  exact Nat.and_two_pow_sub_one_eq_mod b.toNat 6

theorem spriteY_eq (b : Byte) : spriteY b = b.toNat % 32 := by
  simp only [spriteY, BitVec.toNat_and]
  exact Nat.and_two_pow_sub_one_eq_mod b.toNat 5

end Sys2Proof.Machine
end

