-- ==== Sys2Proof/Laws/Operands.lean ====
section
/-! SUPPORT. What each operand form and each flag computation gives, as numbers. -/

namespace Sys2Proof.Machine

theorem zext16_eq (nnn : Addr) : zext16 nnn = BitVec.ofNat 16 nnn.toNat := by
  apply BitVec.eq_of_toNat_eq
  simp [zext16]

/-! ### Operands -/

theorem shiftOperand_eq {s : State} {x y : Reg} {b : Byte}
    (h : s.cfg.shiftSource = .vx ∧ b = s.reg x ∨ s.cfg.shiftSource = .vy ∧ b = s.reg y) : shiftOperand x y s = b := by
  rcases h with ⟨h, rfl⟩ | ⟨h, rfl⟩ <;> simp only [shiftOperand, h]

theorem jumpOffset_v0 {s : State} (h : s.cfg.jumpOffsetReg = .v0) (nnn : Addr) : jumpOffset nnn s = s.reg 0 := by
  simp only [jumpOffset, h]

theorem jumpOffset_vx {s : State} (h : s.cfg.jumpOffsetReg = .vx) {nnn : Addr} {x : Reg}
    (hx : x.val = nnn.toNat / 256) : jumpOffset nnn s = s.reg x := by
  have hn := nnn.isLt
  have : (nnn.extractLsb' 8 4).toFin = x := Fin.ext (by
    change (nnn.extractLsb' 8 4).toNat = x.val
    rw [BitVec.extractLsb'_toNat, Nat.shiftRight_eq_div_pow, hx]
    omega)
  simp only [jumpOffset, h, this]

theorem trunc8_key (k : Key) : (trunc8 k.val).toNat = k.val := by
  have := k.isLt
  simp only [trunc8, BitVec.toNat_ofNat]
  omega

/-- The keypad predicate compares the whole register with the active key. -/
theorem pressed_iff (b : Byte) (s : State) :
    pressed b s = true ↔ ∃ k : Key, s.input.activeKey = some k ∧ b.toNat = k.val := by
  unfold pressed
  split
  · rename_i k hk
    rw [beq_iff_eq, ← BitVec.toNat_inj, trunc8_key]
    exact ⟨fun h => ⟨k, hk, h.symm⟩, fun ⟨k', h1, h2⟩ => by rw [hk] at h1; cases h1; exact h2.symm⟩
  · rename_i hk
    simp [hk]

theorem keyDown_eq_some {s : State} {k : Key} :
    keyDown s = some k ↔ s.input.keyDownEdge = true ∧ s.input.activeKey = some k := by
  simp [keyDown]

theorem keyDown_eq_none {s : State} :
    keyDown s = none ↔ s.input.keyDownEdge = false ∨ s.input.activeKey = none := by
  unfold keyDown
  cases s.input.keyDownEdge <;> simp

theorem glyphAddr_toNat (b : Byte) : (glyphAddr b).toNat = b.toNat % 16 * 5 := by
  simp only [glyphAddr, trunc16, BitVec.toNat_ofNat]
  omega

@[simp] theorem bcdDigits_length (b : Byte) : (bcdDigits b).length = 3 := rfl

@[simp] theorem regBlock_length (x : Reg) (s : State) : (regBlock x s).length = x.val + 1 := by
  have := x.isLt
  simp only [regBlock, List.length_take, Vector.length_toList]
  omega

theorem regBlock_getElem (x k : Reg) (s : State) (h : k.val < (regBlock x s).length) :
    (regBlock x s)[k.val] = s.reg k := by
  simp [regBlock, State.reg]

/-- The registers FX65 leaves, one by one. -/
theorem State.reg_setRegs_loadedRegs (x k : Reg) (s : State) :
    (s.setRegs (loadedRegs x s)).reg k = if k ≤ x then s.readByte (s.i.toNat + k.val) else s.reg k := by
  simp [State.reg, loadedRegs]

/-! ### Flags -/

theorem addCarry_fst (a b : Byte) : (addCarry a b).1.toNat = (a.toNat + b.toNat) % 256 := by
  simp [addCarry, trunc8]

theorem addCarry_snd (a b : Byte) : (addCarry a b).2 = decide (a.toNat + b.toNat > 255) := rfl

theorem subNoBorrow_fst (a b : Byte) : (subNoBorrow a b).1 = a - b := by
  have := a.isLt
  have := b.isLt
  apply BitVec.eq_of_toNat_eq
  simp only [subNoBorrow, trunc8, BitVec.toNat_ofNat, BitVec.toNat_sub]
  omega

theorem subNoBorrow_snd (a b : Byte) : (subNoBorrow a b).2 = decide (b.toNat ≤ a.toNat) := rfl

theorem shiftRight_fst (b : Byte) : (shiftRight b).1.toNat = b.toNat / 2 := by
  simp [shiftRight, Nat.shiftRight_eq_div_pow]

theorem shiftRight_snd (b : Byte) : (shiftRight b).2 = decide (b.toNat % 2 = 1) := by
  simp [shiftRight, BitVec.getLsbD, Nat.testBit_zero]

theorem shiftLeft_fst (b : Byte) : (shiftLeft b).1.toNat = b.toNat * 2 % 256 := by
  simp [shiftLeft, trunc8, Nat.shiftLeft_eq]

theorem shiftLeft_snd (b : Byte) : (shiftLeft b).2 = decide (128 ≤ b.toNat) := by
  have := b.isLt
  simp only [shiftLeft, BitVec.getLsbD, Nat.testBit_eq_decide_div_mod_eq]
  congr 1
  simp only [eq_iff_iff]
  omega

/-- The registers after FX1E's flag, one by one. -/
theorem State.reg_setIndexFlag (s : State) (sum : Nat) (r : Reg) :
    (s.setIndexFlag sum).reg r =
      if r = vf then (if sum > 0x0FFF then 1 else if s.cfg.fx1eVfClear then 0 else s.reg vf) else s.reg r := by
  unfold State.setIndexFlag
  split
  · simp [State.reg_setFlag]
  · split
    · simp [State.reg_setFlag]
    · split
      · rename_i h; rw [h]
      · rfl

end Sys2Proof.Machine
end

