-- ==== Sys2Proof/Laws/PerInstr.lean ====
section
/-! SUPPORT. One lemma per instruction: the encoding has, under its row's mask in spec/opcode_table.json, the row's
match (30_encoding.md R83). The mask of the two register skips does not look at the low nibble. -/

namespace Sys2Proof.Laws.TableRow

open Sys2Proof

/-- The row's mask, as spec/opcode_table.json writes it. -/
def mask : Instr → Word
  | .sys _ => 0xF000#16
  | .cls => 0xFFFF#16
  | .ret => 0xFFFF#16
  | .jp _ => 0xF000#16
  | .call _ => 0xF000#16
  | .seImm _ _ => 0xF000#16
  | .sneImm _ _ => 0xF000#16
  | .seReg _ _ => 0xF000#16
  | .ldImm _ _ => 0xF000#16
  | .addImm _ _ => 0xF000#16
  | .ldReg _ _ => 0xF00F#16
  | .or _ _ => 0xF00F#16
  | .and _ _ => 0xF00F#16
  | .xor _ _ => 0xF00F#16
  | .addReg _ _ => 0xF00F#16
  | .sub _ _ => 0xF00F#16
  | .shr _ _ => 0xF00F#16
  | .subn _ _ => 0xF00F#16
  | .shl _ _ => 0xF00F#16
  | .sneReg _ _ => 0xF000#16
  | .ldI _ => 0xF000#16
  | .jpV0 _ => 0xF000#16
  | .rnd _ _ => 0xF000#16
  | .drw _ _ _ => 0xF000#16
  | .skp _ => 0xF0FF#16
  | .sknp _ => 0xF0FF#16
  | .ldXDt _ => 0xF0FF#16
  | .ldXK _ => 0xF0FF#16
  | .ldDtX _ => 0xF0FF#16
  | .ldStX _ => 0xF0FF#16
  | .addI _ => 0xF0FF#16
  | .ldF _ => 0xF0FF#16
  | .ldB _ => 0xF0FF#16
  | .ldMemX _ => 0xF0FF#16
  | .ldXMem _ => 0xF0FF#16

/-- The row's match, as spec/opcode_table.json writes it. -/
def pattern : Instr → Word
  | .sys _ => 0x0000#16
  | .cls => 0x00E0#16
  | .ret => 0x00EE#16
  | .jp _ => 0x1000#16
  | .call _ => 0x2000#16
  | .seImm _ _ => 0x3000#16
  | .sneImm _ _ => 0x4000#16
  | .seReg _ _ => 0x5000#16
  | .ldImm _ _ => 0x6000#16
  | .addImm _ _ => 0x7000#16
  | .ldReg _ _ => 0x8000#16
  | .or _ _ => 0x8001#16
  | .and _ _ => 0x8002#16
  | .xor _ _ => 0x8003#16
  | .addReg _ _ => 0x8004#16
  | .sub _ _ => 0x8005#16
  | .shr _ _ => 0x8006#16
  | .subn _ _ => 0x8007#16
  | .shl _ _ => 0x800E#16
  | .sneReg _ _ => 0x9000#16
  | .ldI _ => 0xA000#16
  | .jpV0 _ => 0xB000#16
  | .rnd _ _ => 0xC000#16
  | .drw _ _ _ => 0xD000#16
  | .skp _ => 0xE09E#16
  | .sknp _ => 0xE0A1#16
  | .ldXDt _ => 0xF007#16
  | .ldXK _ => 0xF00A#16
  | .ldDtX _ => 0xF015#16
  | .ldStX _ => 0xF018#16
  | .addI _ => 0xF01E#16
  | .ldF _ => 0xF029#16
  | .ldB _ => 0xF033#16
  | .ldMemX _ => 0xF055#16
  | .ldXMem _ => 0xF065#16

/-- The fixed bits of the encoding are the table's, whatever the operands. -/
def Statement (i : Instr) : Prop := encode i &&& mask i = pattern i

/-! ### The fixed bits of a format -/

theorem packNNN_and (f : BitVec 4) (nnn : Addr) : packNNN f nnn &&& 0xF000#16 = f ++ 0x000#12 := by
  rw [packNNN, show 0xF000#16 = 0xF#4 ++ 0x000#12 from rfl, BitVec.and_append, BitVec.and_zero]
  rw [show 0xF#4 = BitVec.allOnes 4 from rfl, BitVec.and_allOnes]

theorem packXNN_and (f : BitVec 4) (x : Reg) (nn : Byte) : packXNN f x nn &&& 0xF000#16 = f ++ 0x0#4 ++ 0x00#8 := by
  rw [packXNN, show 0xF000#16 = 0xF#4 ++ 0x0#4 ++ 0x00#8 from rfl, BitVec.and_append, BitVec.and_append,
    BitVec.and_zero, BitVec.and_zero, show 0xF#4 = BitVec.allOnes 4 from rfl, BitVec.and_allOnes]

theorem packX_and (f : BitVec 4) (x : Reg) (k : Byte) : packXNN f x k &&& 0xF0FF#16 = f ++ 0x0#4 ++ k := by
  rw [packXNN, show 0xF0FF#16 = 0xF#4 ++ 0x0#4 ++ 0xFF#8 from rfl, BitVec.and_append, BitVec.and_append,
    BitVec.and_zero, show 0xF#4 = BitVec.allOnes 4 from rfl, show 0xFF#8 = BitVec.allOnes 8 from rfl,
    BitVec.and_allOnes, BitVec.and_allOnes]

theorem packXYN_and (f : BitVec 4) (x y : Reg) (n : BitVec 4) :
    packXYN f x y n &&& 0xF000#16 = f ++ 0x0#4 ++ 0x0#4 ++ 0x0#4 := by
  rw [packXYN, show 0xF000#16 = 0xF#4 ++ 0x0#4 ++ 0x0#4 ++ 0x0#4 from rfl, BitVec.and_append, BitVec.and_append,
    BitVec.and_append, BitVec.and_zero, BitVec.and_zero, BitVec.and_zero, show 0xF#4 = BitVec.allOnes 4 from rfl,
    BitVec.and_allOnes]

theorem packXY_and (f : BitVec 4) (x y : Reg) (k : BitVec 4) :
    packXYN f x y k &&& 0xF00F#16 = f ++ 0x0#4 ++ 0x0#4 ++ k := by
  rw [packXYN, show 0xF00F#16 = 0xF#4 ++ 0x0#4 ++ 0x0#4 ++ 0xF#4 from rfl, BitVec.and_append, BitVec.and_append,
    BitVec.and_append, BitVec.and_zero, BitVec.and_zero, show 0xF#4 = BitVec.allOnes 4 from rfl, BitVec.and_allOnes,
    BitVec.and_allOnes]

/-! ### The rows -/

theorem sys (nnn : Addr) : Statement (.sys nnn) := packNNN_and _ nnn
theorem cls : Statement (.cls) := rfl
theorem ret : Statement (.ret) := rfl
theorem jp (nnn : Addr) : Statement (.jp nnn) := packNNN_and _ nnn
theorem call (nnn : Addr) : Statement (.call nnn) := packNNN_and _ nnn
theorem seImm (x : Reg) (nn : Byte) : Statement (.seImm x nn) := packXNN_and _ x nn
theorem sneImm (x : Reg) (nn : Byte) : Statement (.sneImm x nn) := packXNN_and _ x nn
theorem seReg (x : Reg) (y : Reg) : Statement (.seReg x y) := packXYN_and _ x y _
theorem ldImm (x : Reg) (nn : Byte) : Statement (.ldImm x nn) := packXNN_and _ x nn
theorem addImm (x : Reg) (nn : Byte) : Statement (.addImm x nn) := packXNN_and _ x nn
theorem ldReg (x : Reg) (y : Reg) : Statement (.ldReg x y) := packXY_and _ x y _
theorem or (x : Reg) (y : Reg) : Statement (.or x y) := packXY_and _ x y _
theorem and (x : Reg) (y : Reg) : Statement (.and x y) := packXY_and _ x y _
theorem xor (x : Reg) (y : Reg) : Statement (.xor x y) := packXY_and _ x y _
theorem addReg (x : Reg) (y : Reg) : Statement (.addReg x y) := packXY_and _ x y _
theorem sub (x : Reg) (y : Reg) : Statement (.sub x y) := packXY_and _ x y _
theorem shr (x : Reg) (y : Reg) : Statement (.shr x y) := packXY_and _ x y _
theorem subn (x : Reg) (y : Reg) : Statement (.subn x y) := packXY_and _ x y _
theorem shl (x : Reg) (y : Reg) : Statement (.shl x y) := packXY_and _ x y _
theorem sneReg (x : Reg) (y : Reg) : Statement (.sneReg x y) := packXYN_and _ x y _
theorem ldI (nnn : Addr) : Statement (.ldI nnn) := packNNN_and _ nnn
theorem jpV0 (nnn : Addr) : Statement (.jpV0 nnn) := packNNN_and _ nnn
theorem rnd (x : Reg) (nn : Byte) : Statement (.rnd x nn) := packXNN_and _ x nn
theorem drw (x : Reg) (y : Reg) (n : BitVec 4) : Statement (.drw x y n) := packXYN_and _ x y n
theorem skp (x : Reg) : Statement (.skp x) := packX_and _ x _
theorem sknp (x : Reg) : Statement (.sknp x) := packX_and _ x _
theorem ldXDt (x : Reg) : Statement (.ldXDt x) := packX_and _ x _
theorem ldXK (x : Reg) : Statement (.ldXK x) := packX_and _ x _
theorem ldDtX (x : Reg) : Statement (.ldDtX x) := packX_and _ x _
theorem ldStX (x : Reg) : Statement (.ldStX x) := packX_and _ x _
theorem addI (x : Reg) : Statement (.addI x) := packX_and _ x _
theorem ldF (x : Reg) : Statement (.ldF x) := packX_and _ x _
theorem ldB (x : Reg) : Statement (.ldB x) := packX_and _ x _
theorem ldMemX (x : Reg) : Statement (.ldMemX x) := packX_and _ x _
theorem ldXMem (x : Reg) : Statement (.ldXMem x) := packX_and _ x _

end Sys2Proof.Laws.TableRow
end

