-- ==== Sys2Proof/Tests/Slice0.lean ====
section
/-! SUPPORT. Tests. Decoding: words written out bit by bit from the encodings of 30_encoding.md R83. One step: the
vectors of 95_test_vectors.md, on its start state and default inputs. Last, a witness for the hypotheses and the clauses
of every statement. -/

namespace Sys2Proof.Tests

open Sys2Proof Sys2Proof.Machine

/-! ### Well-formedness refuses the ill-formed -/

theorem test_wellFormed_refuses_sys_0E0 : Instr.wellFormed .spec (.sys 0x0E0) = false := by decide
theorem test_wellFormed_refuses_sys_0EE : Instr.wellFormed .spec (.sys 0x0EE) = false := by decide
theorem test_wellFormed_refuses_sys_1E0_low_byte :
    Instr.wellFormed { Config.spec with family0Match := .lowByte } (.sys 0x1E0) = false := by decide
theorem test_wellFormed_refuses_sys_FEE_low_byte :
    Instr.wellFormed { Config.spec with family0Match := .lowByte } (.sys 0xFEE) = false := by decide
theorem test_wellFormed_takes_sys_1E0 : Instr.wellFormed .spec (.sys 0x1E0) = true := by decide

/-! ### Decoding: every constructor, each word in the bits of its encoding -/

theorem test_decode_sys : decodeTableWord 16 0b0000101010111100 = some (.sys 0xabc) := by decide
theorem test_decode_cls : decodeTableWord 16 0b0000000011100000 = some (.cls) := by decide
theorem test_decode_ret : decodeTableWord 16 0b0000000011101110 = some (.ret) := by decide
theorem test_decode_jp : decodeTableWord 16 0b0001101010111100 = some (.jp 0xabc) := by decide
theorem test_decode_call : decodeTableWord 16 0b0010101010111100 = some (.call 0xabc) := by decide
theorem test_decode_seImm : decodeTableWord 16 0b0011001110100101 = some (.seImm 3 0xa5) := by decide
theorem test_decode_sneImm : decodeTableWord 16 0b0100001110100101 = some (.sneImm 3 0xa5) := by decide
theorem test_decode_seReg : decodeTableWord 16 0b0101001111000000 = some (.seReg 3 12) := by decide
theorem test_decode_ldImm : decodeTableWord 16 0b0110001110100101 = some (.ldImm 3 0xa5) := by decide
theorem test_decode_addImm : decodeTableWord 16 0b0111001110100101 = some (.addImm 3 0xa5) := by decide
theorem test_decode_ldReg : decodeTableWord 16 0b1000001111000000 = some (.ldReg 3 12) := by decide
theorem test_decode_or : decodeTableWord 16 0b1000001111000001 = some (.or 3 12) := by decide
theorem test_decode_and : decodeTableWord 16 0b1000001111000010 = some (.and 3 12) := by decide
theorem test_decode_xor : decodeTableWord 16 0b1000001111000011 = some (.xor 3 12) := by decide
theorem test_decode_addReg : decodeTableWord 16 0b1000001111000100 = some (.addReg 3 12) := by decide
theorem test_decode_sub : decodeTableWord 16 0b1000001111000101 = some (.sub 3 12) := by decide
theorem test_decode_shr : decodeTableWord 16 0b1000001111000110 = some (.shr 3 12) := by decide
theorem test_decode_subn : decodeTableWord 16 0b1000001111000111 = some (.subn 3 12) := by decide
theorem test_decode_shl : decodeTableWord 16 0b1000001111001110 = some (.shl 3 12) := by decide
theorem test_decode_sneReg : decodeTableWord 16 0b1001001111000000 = some (.sneReg 3 12) := by decide
theorem test_decode_ldI : decodeTableWord 16 0b1010101010111100 = some (.ldI 0xabc) := by decide
theorem test_decode_jpV0 : decodeTableWord 16 0b1011101010111100 = some (.jpV0 0xabc) := by decide
theorem test_decode_rnd : decodeTableWord 16 0b1100001110100101 = some (.rnd 3 0xa5) := by decide
theorem test_decode_drw : decodeTableWord 16 0b1101001111000110 = some (.drw 3 12 6) := by decide
theorem test_decode_skp : decodeTableWord 16 0b1110001110011110 = some (.skp 3) := by decide
theorem test_decode_sknp : decodeTableWord 16 0b1110001110100001 = some (.sknp 3) := by decide
theorem test_decode_ldXDt : decodeTableWord 16 0b1111001100000111 = some (.ldXDt 3) := by decide
theorem test_decode_ldXK : decodeTableWord 16 0b1111001100001010 = some (.ldXK 3) := by decide
theorem test_decode_ldDtX : decodeTableWord 16 0b1111001100010101 = some (.ldDtX 3) := by decide
theorem test_decode_ldStX : decodeTableWord 16 0b1111001100011000 = some (.ldStX 3) := by decide
theorem test_decode_addI : decodeTableWord 16 0b1111001100011110 = some (.addI 3) := by decide
theorem test_decode_ldF : decodeTableWord 16 0b1111001100101001 = some (.ldF 3) := by decide
theorem test_decode_ldB : decodeTableWord 16 0b1111001100110011 = some (.ldB 3) := by decide
theorem test_decode_ldMemX : decodeTableWord 16 0b1111001101010101 = some (.ldMemX 3) := by decide
theorem test_decode_ldXMem : decodeTableWord 16 0b1111001101100101 = some (.ldXMem 3) := by decide

/-! Words of 95_test_vectors.md 2.1, and the words that are no instruction, by name. -/

theorem test_decode_sys_000 : decodeTableWord 16 0x0000 = some (.sys 0x000) := by decide
theorem test_decode_sys_0E1 : decodeTableWord 16 0x00E1 = some (.sys 0x0E1) := by decide
theorem test_decode_01E0_is_sys : decodeTableWord 16 0x01E0 = some (.sys 0x1E0) := by decide
theorem test_decode_01E0_is_cls_low_byte :
    decodeWord { Config.spec with family0Match := .lowByte } 0x01E0 = .ok .cls := by decide
theorem test_decode_5121_ignores_N : decodeTableWord 16 0x5121 = some (.seReg 1 2) := by decide
theorem test_decode_5121_strict :
    decodeWord { Config.spec with strict59 := true } 0x5121 = .error (.family5 0x5121) := by decide
theorem test_decode_9AB7_ignores_N : decodeTableWord 16 0x9AB7 = some (.sneReg 10 11) := by decide
theorem test_decode_9AB7_strict :
    decodeWord { Config.spec with strict59 := true } 0x9AB7 = .error (.family9 0x9AB7) := by decide
theorem test_decode_8128 : decodeWord .spec 0x8128 = .error (.family8 0x8128) := by decide
theorem test_decode_812F : decodeWord .spec 0x812F = .error (.family8 0x812F) := by decide
theorem test_decode_E19F : decodeWord .spec 0xE19F = .error (.familyE 0xE19F) := by decide
theorem test_decode_F100 : decodeWord .spec 0xF100 = .error (.familyF 0xF100) := by decide
theorem test_decode_FFFF : decodeWord .spec 0xFFFF = .error (.familyF 0xFFFF) := by decide
theorem test_decode_one_byte : decode .spec [0x12] = .error .tooShort := by decide
theorem test_decode_is_big_endian : decode .spec [0x12, 0x34, 0x56] = .ok (.jp 0x234, [0x56]) := by decide

/-! ### One step -/

/-- A view of the state after one `Step` that runs the word from `s`. -/
def run {α : Type} (inp : CycleInput) (w : Nat) (s : State) (view : State → α) : Option α :=
  match hostStep inp (s.withFetchWord 16 w) with
  | .next t    => some (view t)
  | .fault _   => none
  | .refused _ => none

/-- The same with the default inputs. -/
def runQuiet {α : Type} (w : Nat) (s : State) (view : State → α) : Option α := run .quiet w s view

/-- The reset state with V1, V2 and VF. -/
def regs12F (v1 v2 f : Byte) : State := ((State.reset.setReg 1 v1).setReg 2 v2).setReg vf f

/-- The reset state with V1 and I. -/
def reg1I (v1 : Byte) (i : Word) : State := (State.reset.setReg 1 v1).setI i

/-- The reset state with `n` stack entries, each 0x0206. -/
def stacked (n : Fin 17) : State := { State.reset with sp := n, stack := Vector.replicate 16 0x0206 }

/-- The reset state under another configuration. -/
def under (cfg : Config) (s : State) : State := { s with cfg := cfg }

theorem test_SYS : runQuiet 0x0123 (State.reset.setPc 0x300) (fun t => (t.pc, t.v, t.diagRecognized)) =
    some (0x302, State.reset.v, true) := by decide
theorem test_RET : runQuiet 0x00EE ((stacked 1).setPc 0x212) (fun t => (t.pc, t.sp)) = some (0x206, 0) := by decide
theorem test_RET_underflow : runQuiet 0x00EE State.reset (fun t => (t.halted, t.fault, t.pc, t.sp)) =
    some (true, ⟨some .stackUnderflow, 0x200, 0x00EE⟩, 0x202, 0) := by decide
theorem test_JP : runQuiet 0x1234 State.reset (·.pc) = some 0x234 := by decide
theorem test_JP_wraps_fetch : runQuiet 0x1FFF (State.reset.setPc 0x0FFF) (fun t => (t.pc, t.fetchWord)) =
    some (0xFFF, 0x1FFF) := by decide
theorem test_CALL : runQuiet 0x2300 (State.reset.setPc 0xFFE) (fun t => (t.pc, t.sp, t.stack[0])) =
    some (0x300, 1, 0x1000) := by decide
theorem test_CALL_overflow : run ⟨none, false, 1, 0⟩ 0x2300 (((stacked 16).setPc 0x204).setDt 5)
      (fun t => (t.halted, t.fault, t.pc, t.sp, t.dt)) =
    some (true, ⟨some .stackOverflow, 0x204, 0x2300⟩, 0x206, 16, 5) := by decide
theorem test_SE_IMM : runQuiet 0x3310 ((State.reset.setReg 3 0x10).setPc 0xFFE) (·.pc) = some 0x1002 := by decide
theorem test_SE_IMM_not : runQuiet 0x3310 (State.reset.setReg 3 0x11) (·.pc) = some 0x202 := by decide
theorem test_SNE_IMM : runQuiet 0x4106 (State.reset.setReg 1 5) (·.pc) = some 0x204 := by decide
theorem test_SNE_IMM_not : runQuiet 0x4105 (State.reset.setReg 1 5) (·.pc) = some 0x202 := by decide
theorem test_SE_REG : runQuiet 0x5127 (regs12F 0x7F 0x7F 0) (·.pc) = some 0x204 := by decide
theorem test_SE_REG_not : runQuiet 0x5120 (regs12F 0x7F 0x7E 0) (·.pc) = some 0x202 := by decide
theorem test_SNE_REG : runQuiet 0x9120 (regs12F 1 2 0) (·.pc) = some 0x204 := by decide
theorem test_SNE_REG_same : runQuiet 0x9110 (regs12F 1 2 0) (·.pc) = some 0x202 := by decide
theorem test_JP_V0 : runQuiet 0xBFFF (State.reset.setReg 0 0xFF) (·.pc) = some 0x10FE := by decide
theorem test_JP_V0_vx :
    runQuiet 0xB300 (under { Config.spec with jumpOffsetReg := .vx } (State.reset.setReg 3 0x10)) (·.pc) =
      some 0x310 := by decide

theorem test_LD_IMM : runQuiet 0x6A9C State.reset (·.reg 10) = some 0x9C := by decide
theorem test_ADD_IMM : runQuiet 0x7101 (regs12F 0xFF 0 2) (fun t => (t.reg 1, t.reg vf)) = some (0, 2) := by decide
theorem test_ADD_IMM_VF : runQuiet 0x7F01 (regs12F 0 0 0x10) (·.reg vf) = some 0x11 := by decide
theorem test_LD_REG : runQuiet 0x8120 (regs12F 0 0x3C 0) (·.reg 1) = some 0x3C := by decide
theorem test_OR : runQuiet 0x8121 (regs12F 0xF0 0x0F 2) (fun t => (t.reg 1, t.reg vf)) = some (0xFF, 2) := by decide
theorem test_AND : runQuiet 0x8122 (regs12F 0xF0 0x3C 2) (fun t => (t.reg 1, t.reg vf)) = some (0x30, 2) := by decide
theorem test_XOR : runQuiet 0x8123 (regs12F 0xFF 0x0F 2) (fun t => (t.reg 1, t.reg vf)) = some (0xF0, 2) := by decide
theorem test_ADD_REG : runQuiet 0x8124 (regs12F 0xFF 0xFF 2) (fun t => (t.reg 1, t.reg vf)) = some (0xFE, 1) := by
  decide
theorem test_ADD_REG_VF : runQuiet 0x8F14 (regs12F 1 0 1) (·.reg vf) = some 0 := by decide
theorem test_SUB : runQuiet 0x8125 (regs12F 1 2 2) (fun t => (t.reg 1, t.reg vf)) = some (0xFF, 0) := by decide
theorem test_SUB_equal : runQuiet 0x8125 (regs12F 5 5 2) (fun t => (t.reg 1, t.reg vf)) = some (0, 1) := by decide
theorem test_SHR : runQuiet 0x8106 (regs12F 5 0 2) (fun t => (t.reg 1, t.reg vf)) = some (2, 1) := by decide
theorem test_SHR_vy :
    runQuiet 0x8126 (under { Config.spec with shiftSource := .vy } (regs12F 4 3 2)) (fun t => (t.reg 1, t.reg vf)) =
      some (1, 1) := by decide
theorem test_SUBN : runQuiet 0x8127 (regs12F 2 1 2) (fun t => (t.reg 1, t.reg vf)) = some (0xFF, 0) := by decide
theorem test_SUBN_equal : runQuiet 0x8127 (regs12F 5 5 2) (fun t => (t.reg 1, t.reg vf)) = some (0, 1) := by decide
theorem test_SHL : runQuiet 0x810E (regs12F 0x81 0 2) (fun t => (t.reg 1, t.reg vf)) = some (2, 1) := by decide
theorem test_SHL_VF : runQuiet 0x8FFE (regs12F 0 0 0x81) (·.reg vf) = some 1 := by decide
theorem test_RND : run ⟨none, false, 0, 0xAB⟩ 0xC10F State.reset (·.reg 1) = some 0x0B := by decide

theorem test_LD_I : runQuiet 0xAFFF State.reset (·.i) = some 0x0FFF := by decide
theorem test_ADD_I : runQuiet 0xF11E (reg1I 2 0xFFFF) (fun t => (t.i, t.reg vf)) = some (0x0001, 1) := by decide
theorem test_ADD_I_no_overflow : runQuiet 0xFF1E ((State.reset.setReg vf 5).setI 0x10) (fun t => (t.i, t.reg vf)) =
    some (0x0015, 5) := by decide
theorem test_LD_F : runQuiet 0xF029 (State.reset.setReg 0 0x1A) (·.i) = some 0x0032 := by decide
theorem test_LD_B : runQuiet 0xF133 (reg1I 0x9C 0x300) (fun t => (t.mem, t.i)) =
    some ([(0x200, 0xF1), (0x201, 0x33), (0x300, 1), (0x301, 5), (0x302, 6)], 0x300) := by decide
theorem test_LD_B_wraps : runQuiet 0xF133 (reg1I 0xFF 0xFFE) (fun t => [0xFFE, 0xFFF, 0x000].map t.readByte) =
    some [2, 5, 5] := by decide
theorem test_LD_MEM_X : runQuiet 0xF155 ((reg1I 0x22 0x400).setReg 0 0x11)
    (fun t => (t.readByte 0x400, t.readByte 0x401, t.readByte 0x402, t.i)) = some (0x11, 0x22, 0, 0x400) := by decide
theorem test_LD_MEM_X_advance :
    runQuiet 0xF155 (under { Config.spec with indexAdvance := true } (reg1I 0x22 0x400)) (·.i) = some 0x402 := by decide
theorem test_LD_X_MEM : runQuiet 0xF265 ((State.reset.setI 0x300).storeBytes 0x300 [1, 5, 6, 7])
    (fun t => (t.reg 0, t.reg 1, t.reg 2, t.reg 3, t.i)) = some (1, 5, 6, 0, 0x300) := by decide
theorem test_LD_X_MEM_wraps : runQuiet 0xF065 (State.reset.setI 0x1000) (·.reg 0) = some 0xF0 := by decide

/-- Whether each cell is on. -/
def cells (ps : List (Nat × Nat)) (t : State) : List Bool := ps.map fun p => t.fb.cell p.1 p.2

/-- The reset state with V1, V2, I and the sprite at 0x300. -/
def sprite (v1 v2 : Byte) (i : Word) (bs : List Byte) : State :=
  ((regs12F v1 v2 2).setI i).storeBytes 0x300 bs

theorem test_CLS : runQuiet 0x00E0 { State.reset with fb := State.reset.fb.toggle 5 3 }
    (fun t => (cells [(5, 3), (63, 31)] t, t.fbUpdated, t.pc)) = some ([false, false], true, 0x202) := by decide
theorem test_DRW : runQuiet 0xD122 (sprite 5 3 0 []) (fun t => (cells [(4, 3), (5, 3), (8, 3), (9, 3), (5, 4), (6, 4),
    (8, 4), (5, 5)] t, t.reg vf)) = some ([false, true, true, false, true, false, true, false], 0) := by decide
theorem test_DRW_clips_and_collides :
    runQuiet 0xD122 { sprite 0x7E 0x1F 0x300 [0xFF, 0xFF] with fb := State.reset.fb.toggle 63 31 }
      (fun t => (cells [(62, 31), (63, 31), (0, 31), (62, 0)] t, t.reg vf)) =
        some ([true, false, false, false], 1) := by decide

theorem test_SKP : run ⟨some 3, false, 0, 0⟩ 0xE19E (reg1I 3 0) (·.pc) = some 0x204 := by decide
theorem test_SKP_eight_bits : run ⟨some 3, false, 0, 0⟩ 0xE19E (reg1I 0x13 0) (·.pc) = some 0x202 := by decide
theorem test_SKNP : run ⟨some 3, false, 0, 0⟩ 0xE1A1 (reg1I 0x13 0) (·.pc) = some 0x204 := by decide
theorem test_SKNP_no_key : runQuiet 0xE1A1 (reg1I 3 0) (·.pc) = some 0x204 := by decide
theorem test_LD_X_DT : run ⟨none, false, 1, 0⟩ 0xF307 (State.reset.setDt 0x2A) (fun t => (t.reg 3, t.dt)) =
    some (0x2A, 0x29) := by decide
theorem test_LD_X_K : run ⟨some 7, true, 0, 0⟩ 0xF50A State.reset (fun t => (t.reg 5, t.pc)) = some (7, 0x202) := by
  decide
theorem test_LD_X_K_waits : run ⟨some 7, false, 1, 0⟩ 0xF50A ((State.reset.setDt 3).setPc 0xFFFE)
    (fun t => (t.reg 5, t.pc, t.dt)) = some (0, 0xFFFE, 2) := by decide
theorem test_LD_DT_X : run ⟨none, false, 1, 0⟩ 0xF015 (State.reset.setReg 0 5) (·.dt) = some 4 := by decide
theorem test_LD_ST_X : runQuiet 0xF418 (State.reset.setReg 4 0x10) (fun t => (t.st, t.soundOn)) = some (0x10, true) := by
  decide
theorem test_LD_ST_X_expires : run ⟨none, false, 1, 0⟩ 0xF418 (State.reset.setReg 4 1) (fun t => (t.st, t.soundOn)) =
    some (0, false) := by decide

theorem test_unrecognized : run ⟨none, false, 1, 0⟩ 0x8128 (State.reset.setDt 3)
    (fun t => (t.pc, t.diagValid, t.diagAddr, t.diagOpcode, t.diagRecognized, t.dt)) =
      some (0x202, true, 0x200, 0x8128, false, 2) := by decide
theorem test_halted_step_changes_nothing :
    (match hostStep ⟨none, false, 3, 0⟩ { State.reset.setDt 5 with halted := true } with
      | .next t => (t.dt, t.pc, t.halted, t.diagValid)
      | _       => (0, 0, false, true)) = (5, 0x200, true, false) := by decide
theorem test_ticks_clamp : run ⟨none, false, 9, 0⟩ 0x0000 (State.reset.setDt 5) (·.dt) = some 0 := by decide

/-! ### Reset, load, memory -/

theorem test_reset_memory_canonical : State.reset.mem.wf State.reset.cfg.font = true := by decide
theorem test_reset_font_ends : [0x000, 0x004, 0x04B, 0x04F, 0x050, 0xFFF].map State.reset.readByte =
    [0xF0, 0xF0, 0xF0, 0x80, 0x00, 0x00] := by decide
theorem test_load : (State.reset.load [0x12, 0x00]).2.mem = [(0x200, 0x12)] := by decide
theorem test_load_over_load : [0x200, 0x201, 0x202].map
    ((State.reset.load [0xAA, 0xBB, 0xCC]).2.load [0x11]).2.readByte = [0x11, 0xBB, 0xCC] := by decide
theorem test_write_back_of_reset_byte_unlists :
    ((State.reset.writeByte 0x000 0x12).writeByte 0x1000 0xF0).mem = [] := by decide
theorem test_fault_codes : [none, some .stackOverflow, some .stackUnderflow].map faultCode = [0, 1, 2] := by decide

/-! ### Witnesses: a state and operands that meet all of a statement's hypotheses, and each clause at a boundary -/

/-- The state a step answered. -/
def nextOf (o : Host.Outcome State Fault Refusal) : State :=
  match o with
  | .next t    => t
  | .fault _   => State.reset
  | .refused _ => State.reset

/-- `s` with the word to fetch next and the default inputs. -/
def ready (w : Nat) (s : State) : State := (s.offer .quiet).withFetchWord 16 w

/-- The state after the step that runs the word. -/
def after (w : Nat) (s : State) : State := nextOf (step (ready w s))

/-- One bit of sprite at 0x300, I there. -/
def dot : State := (State.reset.setI 0x300).writeByte 0x300 0x80

theorem witness_StepRunsDecodedInstruction :
    (ready 0x1FFE (State.reset.setPc 0x0FFF)).halted = false ∧
    (0x1FFE : Word) = (ready 0x1FFE (State.reset.setPc 0x0FFF)).mem.read standardFont (0x0FFF % 4096)
      ++ (ready 0x1FFE (State.reset.setPc 0x0FFF)).mem.read standardFont ((0x0FFF + 1) % 4096) ∧
    decodeWord .spec 0x1FFE = .ok (.jp 0xFFE) ∧ decodeWord .spec 0x8128 = .error (.family8 0x8128) ∧
    (after 0x00EE State.reset).halted = true ∧ (after 0x1FFE State.reset).halted = false := by decide

theorem witness_UnrecognizedWordIsReportedNoOp :
    (ready 0x8128 State.reset).halted = false ∧
    decodeWord .spec (ready 0x8128 State.reset).fetchWord = .error (.family8 0x8128) := by decide

theorem witness_HaltedCoreIgnoresSteps : (after 0x00EE State.reset).halted = true := by decide

theorem witness_FatalCycleRecordsFault :
    ((ready 0x2300 (stacked 16)).halted = false ∧
      decodeWord .spec (ready 0x2300 (stacked 16)).fetchWord = .ok (.call 0x300) ∧
      (ready 0x2300 (stacked 16)).sp.val = 16) ∧
    ((ready 0x00EE State.reset).halted = false ∧
      decodeWord .spec (ready 0x00EE State.reset).fetchWord = .ok .ret ∧
      (ready 0x00EE State.reset).sp.val = 0) := by decide

theorem witness_TimersLoseTicksAfterExecute_write :
    (ready 0xF015 State.reset).halted = false ∧
    step (ready 0xF015 State.reset) = .next (after 0xF015 State.reset) ∧
    (after 0xF015 State.reset).halted = false ∧
    decodeWord .spec (ready 0xF015 State.reset).fetchWord = .ok (.ldDtX 0) ∧
    decodeWord .spec (ready 0xF018 State.reset).fetchWord = .ok (.ldStX 0) :=
  ⟨by decide, rfl, by decide, by decide, by decide⟩

theorem witness_TimersLoseTicksAfterExecute_other :
    (ready 0x6000 State.reset).halted = false ∧
    step (ready 0x6000 State.reset) = .next (after 0x6000 State.reset) ∧
    (after 0x6000 State.reset).halted = false ∧
    decodeWord .spec (ready 0x6000 State.reset).fetchWord = .ok (.ldImm 0 0) :=
  ⟨by decide, rfl, by decide, by decide⟩

theorem witness_IdleProgramStaysIdle : idleAt 0x200 (ready 0x1200 State.reset) := by
  unfold idleAt; decide

theorem witness_ResetStateHoldsResetValues :
    (79 < 80 ∧ State.reset.readByte 79 = 0x80) ∧ (80 ≤ 80 ∧ State.reset.readByte 80 = 0) ∧
    (4095 < 4096 ∧ State.reset.readByte 4095 = 0) := by decide

theorem witness_HostResetReconstructs :
    (79 < 80 ∧ (after 0x00EE State.reset).hostReset.readByte 79 = 0x80) ∧
    (80 ≤ 80 ∧ (after 0x00EE State.reset).hostReset.readByte 80 = 0) := by decide

theorem witness_LoadPlacesProgram :
    State.reset.mem.wf State.reset.cfg.font = true ∧ (List.replicate 3584 (0x5A : Byte)).length ≤ 3584 ∧
    3584 < (List.replicate 3585 (0x5A : Byte)).length ∧
    0 < [(0x12 : Byte), 0x00].length ∧ 0x1FF < 4096 ∧ 0x200 + [(0x12 : Byte), 0x00].length ≤ 0x202 := by
  simp only [List.length_replicate]; decide

theorem witness_FirstCycleFetchesAt0x200 :
    State.reset.hostReset = State.reset.hostReset ∧
    (State.reset.hostReset.load [0x12, 0x00]).1 = .loadOk := by decide

theorem witness_DecodeInvertsEncode :
    Instr.wellFormed .spec (.sys 0xFFF) = true ∧ Instr.wellFormed .spec (.drw 15 15 15) = true := by decide

theorem witness_EncodeRecoversDecodedWord :
    decodeWord .spec 0x5127 = .ok (.seReg 1 2) ∧ decodeWord .spec 0x9AB7 = .ok (.sneReg 10 11) ∧
    decodeWord { Config.spec with family0Match := .lowByte } 0x0FE0 = .ok .cls ∧
    decodeWord .spec 0xDFFF = .ok (.drw 15 15 15) := by decide

theorem witness_UnrecognizedWordsAreExactlyR88 :
    decodeWord .spec 0x8008 = .error (.family8 0x8008) ∧ decodeWord .spec 0xE09D = .error (.familyE 0xE09D) ∧
    decodeWord .spec 0xF000 = .error (.familyF 0xF000) ∧
    decodeWord { Config.spec with strict59 := true } 0x5001 = .error (.family5 0x5001) ∧
    decodeWord { Config.spec with strict59 := true } 0x5000 = .ok (.seReg 0 0) := by decide

theorem witness_CallPushesReturnAddress :
    (stacked 15).sp.val < 16 ∧ (0 : Nat) ≠ (stacked 15).sp.val ∧ (stacked 16).sp.val = 16 := by decide

theorem witness_RetPopsReturnAddress : 0 < (stacked 1).sp.val ∧ (stacked 0).sp.val = 0 := by decide

theorem witness_RetReturnsAfterCall :
    (stacked 15).sp.val < 16 ∧
    (nextOf (exec (.call 0x300) (stacked 15))).sp = (nextOf (exec (.call 0x300) (stacked 15))).sp ∧
    (nextOf (exec (.call 0x300) (stacked 15))).sp.val = 16 := by decide

theorem witness_KeySkipsMovePc :
    (some (15 : Key) = some 15 ∧ ((reg1I 0x0F 0).reg 1).toNat = (15 : Key).val) ∧
    ((reg1I 0x1F 0).reg 1).toNat ≠ (15 : Key).val ∧ CycleInput.quiet.activeKey = none := by decide

theorem witness_OffsetJumpSetsPc :
    Config.spec.jumpOffsetReg = .v0 ∧
    ({ Config.spec with jumpOffsetReg := .vx } : Config).jumpOffsetReg = .vx ∧
    (15 : Reg).val = (0xFFF : Addr).toNat / 256 := by decide

theorem witness_AddRegisterSetsCarry :
    ((regs12F 0xFF 1 0).reg 1).toNat + ((regs12F 0xFF 1 0).reg 2).toNat > 255 ∧
    ¬ ((regs12F 0xFE 1 0).reg 1).toNat + ((regs12F 0xFE 1 0).reg 2).toNat > 255 ∧
    (1 : Reg) ≠ vf ∧ (0 : Reg) ≠ 1 := by decide

theorem witness_SubtractionsSetNoBorrow :
    ((regs12F 5 5 0).reg 2).toNat ≤ ((regs12F 5 5 0).reg 1).toNat ∧
    ¬ ((regs12F 5 6 0).reg 2).toNat ≤ ((regs12F 5 6 0).reg 1).toNat ∧ (1 : Reg) ≠ vf := by decide

theorem witness_ShiftsSetShiftedOutBit :
    (State.reset.cfg.shiftSource = .vx ∧ (0x81 : Byte) = (regs12F 0x81 0 0).reg 1) ∧
    ((under { Config.spec with shiftSource := .vy } (regs12F 0 0x7F 0)).cfg.shiftSource = .vy ∧
      (0x7F : Byte) = (regs12F 0 0x7F 0).reg 2) := by decide

theorem witness_AddIndexSetsOverflowFlag :
    (0x0FFF : Nat) = (reg1I 0xFF 0xF00).i.toNat + ((reg1I 0xFF 0xF00).reg 1).toNat ∧
    (0x1000 : Nat) = (reg1I 0xFF 0xF01).i.toNat + ((reg1I 0xFF 0xF01).reg 1).toNat ∧
    ({ Config.spec with fx1eVfClear := true } : Config).fx1eVfClear = true ∧ Config.spec.fx1eVfClear = false ∧
    (14 : Reg) ≠ vf := by decide

theorem witness_BcdStoresThreeDigits :
    (reg1I 0xFF 0xFFE).mem.wf (reg1I 0xFF 0xFFE).cfg.font = true ∧
    0xFFE % 4096 ≠ 1 ∧ (0xFFE + 1) % 4096 ≠ 1 ∧ (0xFFE + 2) % 4096 ≠ 1 := by decide

theorem witness_BcdStoresThreeDigits_outside : ¬ inBlock 0xFFE 3 1 := by
  rintro ⟨k, hk, h⟩
  match k with
  | 0 | 1 | 2 => exact absurd h (by decide)
  | n + 3 => omega

theorem witness_BcdDigitsRecomposeValue :
    (reg1I 0xFF 0xFFE).mem.wf (reg1I 0xFF 0xFFE).cfg.font = true ∧
    exec (.ldB 1) (reg1I 0xFF 0xFFE) = .next (nextOf (exec (.ldB 1) (reg1I 0xFF 0xFFE))) := ⟨by decide, rfl⟩

theorem witness_StoreRegistersWritesBlock :
    (reg1I 0xFF 0xFFF).mem.wf (reg1I 0xFF 0xFFF).cfg.font = true ∧ (15 : Reg) ≤ 15 ∧
    ({ Config.spec with indexAdvance := true } : Config).indexAdvance = true := by decide

theorem witness_LoadRegistersReadsBlock :
    (15 : Reg) ≤ 15 ∧ ¬ (1 : Reg) ≤ 0 ∧ Config.spec.indexAdvance = false := by decide

theorem witness_LoadRegistersInvertsStore :
    (reg1I 0xFF 0xFFF).mem.wf (reg1I 0xFF 0xFFF).cfg.font = true ∧
    exec (.ldMemX 1) (reg1I 0xFF 0xFFF) = .next (nextOf (exec (.ldMemX 1) (reg1I 0xFF 0xFFF))) ∧
    (nextOf (exec (.ldMemX 1) (reg1I 0xFF 0xFFF))).cfg = (reg1I 0xFF 0xFFF).cfg ∧
    (nextOf (exec (.ldMemX 1) (reg1I 0xFF 0xFFF))).i = (reg1I 0xFF 0xFFF).i ∧
    exec (.ldXMem 1) (nextOf (exec (.ldMemX 1) (reg1I 0xFF 0xFFF))) =
      .next (nextOf (exec (.ldXMem 1) (nextOf (exec (.ldMemX 1) (reg1I 0xFF 0xFFF))))) ∧
    (1 : Reg) ≤ 1 := ⟨by decide, rfl, by decide, by decide, rfl, by decide⟩

theorem witness_DrawTogglesCoveredCells :
    0 = (dot.reg 1).toNat % 64 ∧ 0 = (dot.reg 2).toNat % 32 ∧
    spriteCovers dot 0 0 1 0 0 ∧ ¬ spriteCovers dot 0 0 1 63 31 ∧ dot.fb.cell 0 0 = false ∧
    { dot with fb := dot.fb.toggle 0 0 }.fb.cell 0 0 = true := by
  unfold spriteCovers; decide

theorem witness_CollisionMeansCellTurnedOff :
    exec (.drw 1 2 1) dot = .next (nextOf (exec (.drw 1 2 1) dot)) := rfl

theorem witness_DrawingTwiceRestoresFramebuffer :
    (1 : Reg) ≠ vf ∧ (2 : Reg) ≠ vf ∧ 0 = (dot.reg 1).toNat % 64 ∧ 0 = (dot.reg 2).toNat % 32 ∧
    exec (.drw 1 2 1) dot = .next (nextOf (exec (.drw 1 2 1) dot)) ∧
    exec (.drw 1 2 1) (nextOf (exec (.drw 1 2 1) dot)) =
      .next (nextOf (exec (.drw 1 2 1) (nextOf (exec (.drw 1 2 1) dot)))) ∧
    (nextOf (exec (.drw 1 2 1) dot)).reg vf = 0 :=
  ⟨by decide, by decide, by decide, by decide, rfl, rfl, by decide⟩

theorem witness_SecondDrawCollidesFromEveryScreen :
    (1 : Reg) ≠ vf ∧ (2 : Reg) ≠ vf ∧
    exec (.drw 1 2 1) { dot with fb := dot.fb.toggle 0 0 } =
      .next (nextOf (exec (.drw 1 2 1) { dot with fb := dot.fb.toggle 0 0 })) ∧
    exec (.drw 1 2 1) (nextOf (exec (.drw 1 2 1) { dot with fb := dot.fb.toggle 0 0 })) =
      .next (nextOf (exec (.drw 1 2 1) (nextOf (exec (.drw 1 2 1) { dot with fb := dot.fb.toggle 0 0 })))) :=
  ⟨by decide, by decide, rfl, rfl⟩

theorem witness_OnlyDisplayInstructionsWriteFramebuffer :
    step (ready 0x00E0 State.reset) = .next (after 0x00E0 State.reset) ∧ (after 0x00E0 State.reset).fbUpdated = true ∧
    step (ready 0x6000 State.reset) = .next (after 0x6000 State.reset) ∧
    (after 0x6000 State.reset).fbUpdated = false := ⟨rfl, by decide, rfl, by decide⟩

theorem witness_TimerTransfersAreDirect : (0 : Reg) ≠ 1 ∧ (State.reset.setDt 0x2A).dt ≠ State.reset.reg 0 := by decide

theorem witness_KeyWaitCompletesOnKeyDown :
    ((⟨some 15, true, 0, 0⟩ : CycleInput).keyDownEdge = true ∧
      (⟨some 15, true, 0, 0⟩ : CycleInput).activeKey = some 15 ∧ (0 : Reg) ≠ 5) ∧
    ((⟨some 15, false, 0, 0⟩ : CycleInput).keyDownEdge = false ∧ (⟨none, true, 0, 0⟩ : CycleInput).activeKey = none) := by
  decide

theorem witness_WaitingStepRefetchesKeyWait :
    (ready 0xF50A State.reset).halted = false ∧
    decodeWord .spec (ready 0xF50A State.reset).fetchWord = .ok (.ldXK 5) ∧
    (ready 0xF50A State.reset).sampleInput.input.keyDownEdge = false ∧
    (ready 0xF50A State.reset).sampleInput.input.activeKey = none := by decide

theorem witness_RegistersHaveNoOtherWriters :
    exec (.ldImm 3 1) State.reset = .next (nextOf (exec (.ldImm 3 1) State.reset)) ∧
    (nextOf (exec (.ldImm 3 1) State.reset)).reg 3 ≠ State.reset.reg 3 := ⟨rfl, by decide⟩

theorem witness_MemoryHasNoOtherWriters :
    (ready 0xF133 (reg1I 0xFF 0xFFE)).mem.wf standardFont = true ∧
    step (ready 0xF133 (reg1I 0xFF 0xFFE)) = .next (after 0xF133 (reg1I 0xFF 0xFFE)) ∧
    (after 0xF133 (reg1I 0xFF 0xFFE)).readByte 0x000 ≠ (ready 0xF133 (reg1I 0xFF 0xFFE)).readByte 0x000 :=
  ⟨by decide, rfl, by decide⟩

theorem witness_SpecialRegistersHaveNoOtherWriters :
    exec .ret (stacked 1) = .next (nextOf (exec .ret (stacked 1))) ∧
    (nextOf (exec .ret (stacked 1))).pc ≠ (stacked 1).pc ∧
    (nextOf (exec (.ldXK 5) State.reset)).pc ≠ State.reset.pc ∧
    (nextOf (exec .ret (stacked 1))).sp ≠ (stacked 1).sp ∧
    (nextOf (exec (.call 0) (stacked 15))).stack ≠ (stacked 15).stack ∧
    (nextOf (exec (.ldI 1) State.reset)).i ≠ State.reset.i ∧
    (nextOf (exec (.ldDtX 1) (reg1I 1 0))).dt ≠ State.reset.dt ∧
    (nextOf (exec (.ldStX 1) (reg1I 1 0))).st ≠ State.reset.st :=
  ⟨rfl, by decide, by decide, by decide, by decide, by decide, by decide, by decide⟩

theorem witness_ConfigurationNeverChanges :
    step (ready 0x6000 State.reset) = .next (after 0x6000 State.reset) ∧
    (State.reset.load [0x12]).2 = (State.reset.load [0x12]).2 ∧ State.reset.hostReset = State.reset.hostReset :=
  ⟨rfl, rfl, rfl⟩

theorem witness_OpcodeAndOutputsDoNotCarry : State.reset.halted = false := by decide

theorem witness_StaleStackSlotsAreUnobservable :
    agreeButStaleSlots (ready 0x00EE (stacked 1))
      { ready 0x00EE (stacked 1) with stack := (stacked 1).stack.set 15 0xFFFF } ∧
    step (ready 0x00EE (stacked 1)) = .next (after 0x00EE (stacked 1)) := by
  refine ⟨⟨rfl, fun k hk h => ?_⟩, rfl⟩
  change k < 1 at h
  obtain rfl : k = 0 := by omega
  rfl

theorem witness_OnlyRndReadsRandomByte : ∀ x nn, Instr.skp 1 ≠ .rnd x nn := by intro x nn; simp

theorem witness_OnlyKeyInstructionsReadKeypad :
    ((∀ x, Instr.rnd 1 0xFF ≠ .skp x) ∧ (∀ x, Instr.rnd 1 0xFF ≠ .sknp x) ∧ ∀ x, Instr.rnd 1 0xFF ≠ .ldXK x) ∧
    ∀ x, Instr.skp 1 ≠ .ldXK x := by simp

theorem witness_NoInstructionReadsSoundTimer : ∀ x, Instr.ldDtX 1 ≠ .ldStX x := by simp

/-- A halted state meets the invariant, with every clause of it at work. -/
theorem witness_StepKeepsInvariant :
    (after 0x00EE State.reset).Inv ∧
    step ((after 0x00EE State.reset).offer .quiet) = .next (nextOf (step ((after 0x00EE State.reset).offer .quiet))) :=
  ⟨⟨by decide, by decide, by decide, fun _ => by refine ⟨?_, ?_, ?_, ?_⟩ <;> decide,
    fun _ => ⟨by decide, ⟨fun _ => ⟨.ret, by decide⟩, fun _ => by decide⟩⟩⟩, rfl⟩

/-- A running state meets the invariant, and a step of it answers a next state. -/
theorem witness_StepKeepsInvariant_running :
    (ready 0xF133 State.reset).Inv ∧ step (ready 0xF133 State.reset) = .next (after 0xF133 State.reset) :=
  ⟨⟨by decide, by decide, by decide, fun h => absurd h (by decide), fun h => absurd h (by decide)⟩, rfl⟩

theorem witness_HostOperationsKeepInvariant : (ready 0x6000 State.reset).Inv :=
  ⟨by decide, by decide, by decide, fun h => absurd h (by decide), fun h => absurd h (by decide)⟩

end Sys2Proof.Tests
end

section
/-! The cycle (40_cycle.md): what an instruction does to the halted bit and the fault record. -/

namespace Sys2Proof.Machine

/-- LD Vx, K halts nothing, whether it takes a key or goes back to wait for one (45_keypad_timers.md R223). -/
theorem execLdXK_keeps_fault (x : Reg) (s : State) :
    ∃ t, execLdXK x s = .next t ∧ t.halted = s.halted ∧ t.fault = s.fault := by
  refine ⟨_, rfl, ?_⟩
  cases keyDown s with
  | some k => exact ⟨State.setReg_halted s x _, State.setReg_fault s x _⟩
  | none => exact ⟨State.setPc_halted s _, State.setPc_fault s _⟩

/-- Every instruction but CALL and RET returns `Normal` (40_cycle.md R115). The arms named here go through an operation
that branches or recurses; every other arm writes fields apart from the two by a plain update. -/
theorem exec_keeps_fault {i : Instr} (hcall : ∀ nnn, i ≠ .call nnn) (hret : i ≠ .ret) (s : State) :
    ∃ t, exec i s = .next t ∧ t.halted = s.halted ∧ t.fault = s.fault := by
  cases i
  case call nnn => exact absurd rfl (hcall nnn)
  case ret => exact absurd rfl hret
  case ldXK x => exact execLdXK_keeps_fault x s
  case addI x => exact ⟨_, rfl, State.setIndexFlag_halted _ _, State.setIndexFlag_fault _ _⟩
  case ldB x => exact ⟨_, rfl, State.storeBytes_halted s _ _, State.storeBytes_fault s _ _⟩
  case ldMemX x => exact ⟨_, rfl, by simp, by simp⟩
  case ldXMem x => exact ⟨_, rfl, by simp, by simp⟩
  all_goals exact ⟨_, rfl, rfl, rfl⟩

/-- Settles O7: CALL and RET by what each can do to the stack, every other instruction by `exec_keeps_fault`. -/
theorem onlyCallAndRetCanBeFatal : Obligations.OnlyCallAndRetCanBeFatal := by
  intro i s
  by_cases hcall : ∃ nnn, i = .call nnn
  · obtain ⟨nnn, rfl⟩ := hcall
    obtain ⟨_, hnext⟩ | ⟨hfull, hnext⟩ := execCall_cases nnn s
    · exact ⟨_, hnext, .inl ⟨rfl, rfl⟩⟩
    · exact ⟨_, hnext, .inr (.inl ⟨rfl, ⟨nnn, rfl⟩, hfull, rfl⟩)⟩
  by_cases hret : i = .ret
  · subst hret
    obtain ⟨_, hnext⟩ | ⟨hempty, hnext⟩ := execRet_cases s
    · exact ⟨_, hnext, .inl ⟨rfl, rfl⟩⟩
    · exact ⟨_, hnext, .inr (.inr ⟨rfl, rfl, hempty, rfl⟩)⟩
  · obtain ⟨t, hnext, hkeeps⟩ := exec_keeps_fault (fun nnn h => hcall ⟨nnn, h⟩) hret s
    exact ⟨t, hnext, .inl hkeeps⟩

end Sys2Proof.Machine
end

section
/-! Control flow (41_control_flow.md): the jump and the conditional skips as updates of `pc` alone. -/

namespace Sys2Proof.Machine

/-- Settles O18: JP writes `pc` alone, with the address as `zext16_eq` gives it. -/
theorem jpSetsPc : Obligations.JpSetsPc := by
  intro nnn s
  have hexec : exec (.jp nnn) s = .next (s.setPc (zext16 nnn)) := rfl
  rw [hexec, zext16_eq, State.setPc]

/-- A skip decided by a proposition moves `pc` by 2 more exactly when it holds, and writes nothing else
(00_scope.md R19). -/
theorem State.skipIf_decide (s : State) (p : Prop) [Decidable p] :
    s.skipIf (decide p) = { s with pc := if p then s.pc + 2 else s.pc } := by
  simp only [State.skipIf, State.setPc, decide_eq_true_eq]

/-- Settles O22: the Boolean comparison of each skip is the decision of the proposition `State.skipIf_decide` asks
for. -/
theorem immediateSkipsMovePc : Obligations.ImmediateSkipsMovePc := by
  intro x nn s
  constructor
  · have hexec : exec (.seImm x nn) s = .next (s.skipIf (s.reg x == nn)) := rfl
    rw [hexec, beq_eq_decide, State.skipIf_decide]
  · have hexec : exec (.sneImm x nn) s = .next (s.skipIf (s.reg x != nn)) := rfl
    rw [hexec, bne, beq_eq_decide, ← decide_not, State.skipIf_decide]

end Sys2Proof.Machine
end

section
/-! Registers and ALU (42_alu.md): the flagless instructions as writes of one register. -/

namespace Sys2Proof.Machine

/-- What a write of one register leaves unchanged, said of the instruction that is such a write. Each flagless
instruction meets the hypothesis by its definition, with its own result as `b`. -/
theorem exec_writes_one_reg {i : Instr} {s : State} {x : Reg} {b : Byte} (hexec : exec i s = .next (s.setReg x b)) :
    ∃ t, exec i s = .next t ∧ t = { s with v := t.v } ∧ ∀ r, t.reg r = if r = x then b else s.reg r :=
  ⟨s.setReg x b, hexec, rfl, fun r => State.reg_setReg s x r b⟩

/-- Settles O26: the byte of LD Vx, byte and the source register of LD Vx, Vy, through `exec_writes_one_reg`. -/
theorem movesWriteDestination : Obligations.MovesWriteDestination := by
  intro x y nn s
  have hldImm : exec (.ldImm x nn) s = .next (s.setReg x nn) := rfl
  have hldReg : exec (.ldReg x y) s = .next (s.setReg x (s.reg y)) := rfl
  exact ⟨exec_writes_one_reg hldImm, exec_writes_one_reg hldReg⟩

/-- Settles O27: ADD Vx, byte writes the sum of `addCarry` and drops its carry, so VF is a register like the others. -/
theorem addImmediateWrapsWithoutFlag : Obligations.AddImmediateWrapsWithoutFlag := by
  intro x nn s
  have haddImm : exec (.addImm x nn) s = .next (s.setReg x (addCarry (s.reg x) nn).1) := rfl
  obtain ⟨t, hnext, hframe, hreg⟩ := exec_writes_one_reg haddImm
  refine ⟨t, hnext, hframe, ?_, fun r hr => ?_⟩
  · rw [hreg, if_pos rfl, addCarry_fst]
  · rw [hreg, if_neg hr]

/-- Settles O28: the three bitwise results, each through `exec_writes_one_reg`. -/
theorem logicWritesDestinationOnly : Obligations.LogicWritesDestinationOnly := by
  intro x y s
  have hor : exec (.or x y) s = .next (s.setReg x (s.reg x ||| s.reg y)) := rfl
  have hand : exec (.and x y) s = .next (s.setReg x (s.reg x &&& s.reg y)) := rfl
  have hxor : exec (.xor x y) s = .next (s.setReg x (s.reg x ^^^ s.reg y)) := rfl
  exact ⟨exec_writes_one_reg hor, exec_writes_one_reg hand, exec_writes_one_reg hxor⟩

end Sys2Proof.Machine
end

section
/-! Index and memory (43_index_memory.md): the loads of I as writes of I alone. -/

namespace Sys2Proof.Machine

/-- Settles O33: each instruction is one `State.setI`, of the address `zext16_eq` gives and of the glyph address
`glyphAddr_toNat` gives. -/
theorem indexLoadsSetIndex : Obligations.IndexLoadsSetIndex := by
  intro x nnn s
  constructor
  · have hldI : exec (.ldI nnn) s = .next (s.setI (zext16 nnn)) := rfl
    rw [hldI, zext16_eq, State.setI]
  · have hldF : exec (.ldF x) s = .next (s.setI (glyphAddr (s.reg x))) := rfl
    exact ⟨_, hldF, rfl, glyphAddr_toNat (s.reg x)⟩

end Sys2Proof.Machine
end

section
/-! Display (44_display.md): CLS as one write of the blank framebuffer. -/

namespace Sys2Proof.Machine

/-- Settles O40: CLS is the display write `State.setFb` of the blank framebuffer, whose cells `Framebuffer.cell_blank`
reads. -/
theorem clearScreenTurnsEveryCellOff : Obligations.ClearScreenTurnsEveryCellOff := by
  intro s
  have hcls : exec .cls s = .next (s.setFb Framebuffer.blank) := rfl
  refine ⟨_, hcls, rfl, fun x y => ?_⟩
  rw [State.setFb_fb, Framebuffer.cell_blank]

end Sys2Proof.Machine
end

section
/-! What an instruction writes: the fields its rules name, and every other field as it was. -/

namespace Sys2Proof.Machine

theorem next_unique {o : Host.Outcome State Fault Refusal} {t u : State} (ht : o = .next t) (hu : o = .next u) :
    t = u :=
  Host.Outcome.next.inj (ht.symm.trans hu)

/-- What LD Vx, K does: with a key it writes V[x], without one it writes `pc`. -/
theorem execLdXK_cases (x : Reg) (s : State) :
    (∃ k, keyDown s = some k ∧ execLdXK x s = .next (s.setReg x (trunc8 k.val))) ∨
    (keyDown s = none ∧ execLdXK x s = .next (s.setPc (s.pc - 2))) := by
  cases hk : keyDown s with
  | some k => exact .inl ⟨k, rfl, by simp only [execLdXK, hk]⟩
  | none => exact .inr ⟨rfl, by simp only [execLdXK, hk]⟩

/-! ### What an instruction writes -/

/-- Nothing but the fields the rules of the instruction `i` name differs between the states before and after it. -/
def WritesAtMost (i : Instr) (s t : State) : Prop :=
  match i with
  | .sys _ => t = s
  | .ldImm _ _ | .addImm _ _ | .ldReg _ _ | .or _ _ | .and _ _ | .xor _ _ | .addReg _ _ | .sub _ _ | .shr _ _
  | .subn _ _ | .shl _ _ | .rnd _ _ | .ldXDt _ => t = { s with v := t.v }
  | .jp _ | .seImm _ _ | .sneImm _ _ | .seReg _ _ | .sneReg _ _ | .jpV0 _ | .skp _ | .sknp _ =>
    t = { s with pc := t.pc }
  | .ldXK _ => t = { s with v := t.v, pc := t.pc }
  | .cls => t = { s with fb := t.fb, fbUpdated := true }
  | .drw _ _ _ => t = { s with fb := t.fb, fbUpdated := true, v := t.v }
  | .ldI _ | .ldF _ => t = { s with i := t.i }
  | .addI _ | .ldXMem _ => t = { s with v := t.v, i := t.i }
  | .ldB _ => t = { s with mem := t.mem }
  | .ldMemX _ => t = { s with mem := t.mem, i := t.i }
  | .ldDtX _ => t = { s with dt := t.dt }
  | .ldStX _ => t = { s with st := t.st }
  | .call _ => t = { s with pc := t.pc, sp := t.sp, stack := t.stack, halted := t.halted, fault := t.fault }
  | .ret => t = { s with pc := t.pc, sp := t.sp, halted := t.halted, fault := t.fault }

/-- The arms named here go through an operation that branches or recurses; every other arm is a plain update. -/
theorem exec_writesAtMost {i : Instr} {s t : State} (h : exec i s = .next t) : WritesAtMost i s t := by
  cases i
  case call nnn =>
    obtain ⟨_, e⟩ | ⟨_, e⟩ := execCall_cases nnn s
    · obtain rfl := next_unique e h
      rfl
    · obtain rfl := next_unique e h
      rfl
  case ret =>
    obtain ⟨_, e⟩ | ⟨_, e⟩ := execRet_cases s
    · obtain rfl := next_unique e h
      rfl
    · obtain rfl := next_unique e h
      rfl
  case ldXK x =>
    obtain ⟨_, _, e⟩ | ⟨_, e⟩ := execLdXK_cases x s
    · obtain rfl := next_unique e h
      rfl
    · obtain rfl := next_unique e h
      rfl
  case addI | ldB | ldMemX | ldXMem =>
    obtain rfl := Host.Outcome.next.inj h
    simp [WritesAtMost, State.ext_iff]
  all_goals
    obtain rfl := Host.Outcome.next.inj h
    rfl

/-! ### Field by field -/

section Fields

variable {i : Instr} {s t : State}

/-- No instruction writes `op`, an output but `fb_updated`, or an input. -/
theorem exec_keeps_outputs (h : exec i s = .next t) :
    t.op = s.op ∧ t.soundOn = s.soundOn ∧ t.diagValid = s.diagValid ∧ t.diagAddr = s.diagAddr ∧
    t.diagOpcode = s.diagOpcode ∧ t.diagRecognized = s.diagRecognized ∧
    t.input = s.input ∧ t.pending = s.pending ∧ t.freeCount = s.freeCount := by
  have hw := exec_writesAtMost h
  cases i <;> exact ⟨(congrArg State.op hw :), (congrArg State.soundOn hw :), (congrArg State.diagValid hw :),
    (congrArg State.diagAddr hw :), (congrArg State.diagOpcode hw :), (congrArg State.diagRecognized hw :),
    (congrArg State.input hw :), (congrArg State.pending hw :), (congrArg State.freeCount hw :)⟩

theorem exec_keeps_cfg (h : exec i s = .next t) : t.cfg = s.cfg := by
  have hw := exec_writesAtMost h
  cases i <;> exact (congrArg State.cfg hw :)

theorem exec_keeps_pc (h : exec i s = .next t) (hi : ¬ mayWritePc i) : t.pc = s.pc := by
  have hw := exec_writesAtMost h
  cases i
  case ret | jp | call | seImm | sneImm | seReg | sneReg | jpV0 | skp | sknp | ldXK => exact absurd trivial hi
  all_goals exact (congrArg State.pc hw :)

theorem exec_keeps_stack (h : exec i s = .next t) (hcall : ∀ nnn, i ≠ .call nnn) : t.stack = s.stack := by
  have hw := exec_writesAtMost h
  cases i
  case call nnn => exact absurd rfl (hcall nnn)
  all_goals exact (congrArg State.stack hw :)

theorem exec_keeps_sp (h : exec i s = .next t) (hcall : ∀ nnn, i ≠ .call nnn) (hret : i ≠ .ret) : t.sp = s.sp := by
  have hw := exec_writesAtMost h
  cases i
  case call nnn => exact absurd rfl (hcall nnn)
  case ret => exact absurd rfl hret
  all_goals exact (congrArg State.sp hw :)

/-- FX55 and FX65 write I only under INDEX_ADVANCE (43_index_memory.md R184, R185). -/
theorem exec_keeps_index (h : exec i s = .next t) (hi : ¬ mayWriteIndex s.cfg i) : t.i = s.i := by
  have hw := exec_writesAtMost h
  cases i
  case ldI | addI | ldF => exact absurd trivial hi
  case ldMemX x | ldXMem x =>
    obtain rfl := Host.Outcome.next.inj h
    have hadv : s.cfg.indexAdvance ≠ true := hi
    simp [hadv]
  all_goals exact (congrArg State.i hw :)

theorem exec_keeps_dt (h : exec i s = .next t) (hi : ∀ x, i ≠ .ldDtX x) : t.dt = s.dt := by
  have hw := exec_writesAtMost h
  cases i
  case ldDtX x => exact absurd rfl (hi x)
  all_goals exact (congrArg State.dt hw :)

theorem exec_keeps_st (h : exec i s = .next t) (hi : ∀ x, i ≠ .ldStX x) : t.st = s.st := by
  have hw := exec_writesAtMost h
  cases i
  case ldStX x => exact absurd rfl (hi x)
  all_goals exact (congrArg State.st hw :)

/-- Only CLS and DRW write the framebuffer, and they set `fb_updated` (44_display.md R204). -/
theorem exec_fb (h : exec i s = .next t) :
    ((i = .cls ∨ ∃ x y n, i = .drw x y n) ∧ t.fbUpdated = true) ∨
    (¬ (i = .cls ∨ ∃ x y n, i = .drw x y n) ∧ t.fbUpdated = s.fbUpdated ∧ t.fb = s.fb) := by
  have hw := exec_writesAtMost h
  cases i
  case cls => exact .inl ⟨.inl rfl, (congrArg State.fbUpdated hw :)⟩
  case drw x y n => exact .inl ⟨.inr ⟨x, y, n, rfl⟩, (congrArg State.fbUpdated hw :)⟩
  all_goals exact .inr ⟨by simp, (congrArg State.fbUpdated hw :), (congrArg State.fb hw :)⟩

/-- Memory stays in canonical form: only FX33 and FX55 write it, by `State.storeBytes`. -/
theorem exec_keeps_memWf (h : exec i s = .next t) (hwf : s.mem.wf s.cfg.font = true) :
    t.mem.wf t.cfg.font = true := by
  have hw := exec_writesAtMost h
  rw [exec_keeps_cfg h]
  cases i
  case ldB x =>
    obtain rfl := Host.Outcome.next.inj h
    exact State.storeBytes_wf hwf _ _
  case ldMemX x =>
    obtain rfl := Host.Outcome.next.inj h
    rw [State.advanceIndex_mem]
    exact State.storeBytes_wf hwf _ _
  all_goals exact (congrArg State.mem hw :) ▸ hwf

/-- A byte outside the block FX33 and FX55 store reads as before (20_memory.md R58). -/
theorem exec_keeps_byte (h : exec i s = .next t) (hwf : s.mem.wf s.cfg.font = true) {a : Nat}
    (ha : ¬ inBlock s.i.toNat (storedCount i) a) : t.readByte a = s.readByte a := by
  have hw := exec_writesAtMost h
  cases i
  case ldB x =>
    obtain rfl := Host.Outcome.next.inj h
    exact State.readByte_storeBytes_outside hwf _ _ ha
  case ldMemX x =>
    obtain rfl := Host.Outcome.next.inj h
    rw [State.readByte_of_mem_eq (State.advanceIndex_mem _ x) (State.advanceIndex_cfg _ x)]
    exact State.readByte_storeBytes_outside hwf _ _ (by rwa [regBlock_length])
  all_goals exact State.readByte_of_mem_eq (congrArg State.mem hw :) (congrArg State.cfg hw :) a

/-- A register the instruction is not given reads as before (10_state.md R22, R23). -/
theorem exec_keeps_reg (h : exec i s = .next t) {r : Reg} (hr : ¬ mayWriteReg i r) : t.reg r = s.reg r := by
  have hw := exec_writesAtMost h
  cases i
  case ldImm x _ | addImm x _ | ldReg x _ | or x _ | and x _ | xor x _ | rnd x _ | ldXDt x =>
    obtain rfl := Host.Outcome.next.inj h
    exact State.reg_setReg_ne s _ hr
  case addReg x _ | sub x _ | shr x _ | subn x _ | shl x _ =>
    obtain rfl := Host.Outcome.next.inj h
    obtain ⟨hx, hvf⟩ := not_or.1 hr
    rw [State.reg_setRegFlag, if_neg hvf, if_neg hx]
  case ldXK x =>
    obtain ⟨_, _, e⟩ | ⟨_, e⟩ := execLdXK_cases x s
    · obtain rfl := next_unique e h
      exact State.reg_setReg_ne s _ hr
    · obtain rfl := next_unique e h
      rfl
  case drw x y n =>
    obtain rfl := Host.Outcome.next.inj h
    exact (State.reg_setFlag _ _ r).trans (if_neg hr)
  case addI x =>
    obtain rfl := Host.Outcome.next.inj h
    exact (State.reg_setIndexFlag _ _ r).trans (if_neg hr)
  case ldXMem x =>
    obtain rfl := Host.Outcome.next.inj h
    have hx : ¬ r ≤ x := hr
    rw [State.reg_eq_of_v_eq (State.advanceIndex_v _ x), State.reg_setRegs_loadedRegs, if_neg hx]
  all_goals exact State.reg_eq_of_v_eq (congrArg State.v hw :) r

end Fields

end Sys2Proof.Machine
end

section
/-! The cycle (40_cycle.md): the fatal conditions, the parts of a cycle, and the invariant. -/

namespace Sys2Proof.Machine

/-! ### The fatal conditions -/

/-- The instruction and the stack that raise a fatal condition (60_exceptions.md R240). -/
def Raises (i : Instr) (s : State) : FatalKind → Prop
  | .stackOverflow  => s.sp.val = stackDepth ∧ ∃ nnn, i = .call nnn
  | .stackUnderflow => s.sp.val = 0 ∧ i = .ret

/-- An instruction that raises a condition takes it. -/
theorem exec_of_raises {i : Instr} {s : State} {k : FatalKind} (h : Raises i s k) :
    exec i s = .next (s.takeFatal k) := by
  cases k with
  | stackOverflow =>
    obtain ⟨hsp, nnn, rfl⟩ := h
    obtain ⟨hlt, _⟩ | ⟨_, hnext⟩ := execCall_cases nnn s
    · omega
    · exact hnext
  | stackUnderflow =>
    obtain ⟨hsp, rfl⟩ := h
    obtain ⟨hpos, _⟩ | ⟨_, hnext⟩ := execRet_cases s
    · omega
    · exact hnext

/-- Every instruction either leaves the halted bit and the fault record, or takes a condition it raises. -/
theorem exec_fatal_cases {i : Instr} {s t : State} (h : exec i s = .next t) :
    (t.halted = s.halted ∧ t.fault = s.fault) ∨ ∃ k, Raises i s k ∧ t = s.takeFatal k := by
  by_cases hk : ∃ k, Raises i s k
  · obtain ⟨k, hk⟩ := hk
    exact .inr ⟨k, hk, (next_unique (exec_of_raises hk) h).symm⟩
  · obtain ⟨u, hu, hcases⟩ := onlyCallAndRetCanBeFatal i s
    obtain rfl := next_unique hu h
    obtain hkeeps | ⟨_, hi, hsp, _⟩ | ⟨_, hi, hsp, _⟩ := hcases
    · exact .inl hkeeps
    · exact absurd ⟨.stackOverflow, hsp, hi⟩ hk
    · exact absurd ⟨.stackUnderflow, hsp, hi⟩ hk

/-! ### The parts of a cycle -/

/-- The state an instruction runs in, field by field (40_cycle.md R112, R113). -/
theorem State.fetched_eq (s : State) (r : Bool) :
    s.beginCycle.fetch.report r =
      { s with
        op := s.fetchWord, pc := s.pc + 2, fbUpdated := false, diagValid := true, diagAddr := s.pc,
        diagOpcode := s.fetchWord, diagRecognized := r, input := s.sampleInput.input,
        pending := s.sampleInput.pending, freeCount := s.sampleInput.freeCount } := by
  simp [State.ext_iff]

/-- A halted cycle, field by field (40_cycle.md R111). -/
theorem State.beginCycle_eq (s : State) :
    s.beginCycle =
      { s with
        fbUpdated := false, diagValid := false, input := s.sampleInput.input, pending := s.sampleInput.pending,
        freeCount := s.sampleInput.freeCount } := by
  simp [State.ext_iff]

/-- The state a cycle leaves after execute: ended, unless it was fatal (40_cycle.md R117). -/
def State.settled (u : State) : State := if u.halted then u else u.endCycle

theorem State.settled_of_halted {u : State} (h : u.halted = true) : u.settled = u := if_pos h

theorem State.settled_of_running {u : State} (h : u.halted = false) : u.settled = u.endCycle :=
  if_neg (by simp [h])

/-! Ending a cycle writes the timers and `sound_on` alone. -/

@[simp] theorem State.settled_stack (u : State) : u.settled.stack = u.stack := by
  unfold State.settled; split <;> rfl
@[simp] theorem State.settled_sp (u : State) : u.settled.sp = u.sp := by
  unfold State.settled; split <;> rfl
@[simp] theorem State.settled_mem (u : State) : u.settled.mem = u.mem := by
  unfold State.settled; split <;> rfl
@[simp] theorem State.settled_fb (u : State) : u.settled.fb = u.fb := by
  unfold State.settled; split <;> rfl
@[simp] theorem State.settled_op (u : State) : u.settled.op = u.op := by
  unfold State.settled; split <;> rfl
@[simp] theorem State.settled_halted (u : State) : u.settled.halted = u.halted := by
  unfold State.settled; split <;> rfl
@[simp] theorem State.settled_fbUpdated (u : State) : u.settled.fbUpdated = u.fbUpdated := by
  unfold State.settled; split <;> rfl
@[simp] theorem State.settled_diagValid (u : State) : u.settled.diagValid = u.diagValid := by
  unfold State.settled; split <;> rfl
@[simp] theorem State.settled_diagAddr (u : State) : u.settled.diagAddr = u.diagAddr := by
  unfold State.settled; split <;> rfl
@[simp] theorem State.settled_diagOpcode (u : State) : u.settled.diagOpcode = u.diagOpcode := by
  unfold State.settled; split <;> rfl
@[simp] theorem State.settled_cfg (u : State) : u.settled.cfg = u.cfg := by
  unfold State.settled; split <;> rfl

/-- A running step of an instruction, from what `exec` answers. -/
theorem step_of_exec {s u : State} {i : Instr} (hrun : s.halted = false) (hd : decodeWord s.cfg s.fetchWord = .ok i)
    (hexec : exec i (s.beginCycle.fetch.report true) = .next u) : step s = .next u.settled := by
  rw [step_of_decoded hrun hd, hexec, settle_next, State.settled]

/-! ### The invariant -/

/-- A halted cycle keeps the invariant: the fault record stays true and the diagnostic outputs are lowered. -/
theorem State.Inv.beginCycle {s : State} (h : s.Inv) : s.beginCycle.Inv := by
  rw [State.beginCycle_eq]
  exact ⟨h.memCanonical, h.soundFollows, h.haltedIff, h.faultIsTrue, fun hd => absurd hd Bool.false_ne_true⟩

/-- A running core has no fault recorded. -/
theorem State.Inv.fault_none {s : State} (h : s.Inv) (hrun : s.halted = false) : s.fault.kind = none := by
  by_contra hk
  exact absurd (h.haltedIff.2 hk) (by simp [hrun])

/-- A cycle that ends without a fatal condition meets the invariant if its memory is canonical and its diagnostic
outputs are true: `endCycle` makes `sound_on` follow ST. -/
theorem State.Inv.endCycle {u : State} (hmem : u.mem.wf u.cfg.font = true) (hrun : u.halted = false)
    (hfault : u.fault.kind = none) (hdiag : u.diagTrue) : u.endCycle.Inv where
  memCanonical := hmem
  soundFollows := rfl
  haltedIff := by simp [hrun, hfault]
  faultIsTrue h := absurd (hrun.symm.trans h) Bool.false_ne_true
  diagIsTrue _ := hdiag

/-- Taking a condition that the fetched instruction raises records a true fault (40_cycle.md R117). -/
theorem State.faultTrue_takeFatal {s : State} {i : Instr} {k : FatalKind} (hd : decodeWord s.cfg s.op = .ok i)
    (hk : Raises i s k) : (s.takeFatal k).faultTrue := by
  refine ⟨(BitVec.sub_add_cancel _ _).symm, rfl, ?_⟩
  cases k with
  | stackOverflow =>
    obtain ⟨hsp, nnn, rfl⟩ := hk
    exact ⟨hsp, nnn, hd⟩
  | stackUnderflow =>
    obtain ⟨hsp, rfl⟩ := hk
    exact ⟨hsp, hd⟩

/-- The diagnostic outputs after the fetch of an instruction are true, and stay so through execute. -/
theorem exec_fetched_diagTrue {s u : State} {i : Instr} (hd : decodeWord s.cfg s.fetchWord = .ok i)
    (hexec : exec i (s.beginCycle.fetch.report true) = .next u) : u.diagTrue := by
  obtain ⟨hop, -, -, -, hdop, hrec, -⟩ := exec_keeps_outputs hexec
  have hcfg := exec_keeps_cfg hexec
  rw [State.fetched_eq] at hop hdop hrec hcfg
  exact ⟨hdop.trans hop.symm, fun _ => ⟨i, by rw [hop, hcfg]; exact hd⟩, fun _ => hrec⟩

/-- Settles O58, along what a step can do: a halted cycle, an unrecognised word, a fatal instruction, and one that
ends the cycle. -/
theorem stepKeepsInvariant : Obligations.StepKeepsInvariant := by
  intro s t hinv hstep
  obtain ⟨_, rfl⟩ | ⟨hrun, ⟨e, he⟩, rfl⟩ | ⟨hrun, i, u, hd, hexec, rfl⟩ := step_cases hstep
  · exact hinv.beginCycle
  · rw [State.fetched_eq]
    refine .endCycle hinv.memCanonical hrun (hinv.fault_none hrun) ⟨rfl, fun h => absurd h Bool.false_ne_true, ?_⟩
    rintro ⟨i, hi⟩
    exact absurd (he.symm.trans hi) (by simp)
  · have hdiag := exec_fetched_diagTrue hd hexec
    have hmem := exec_keeps_memWf hexec (by simpa using hinv.memCanonical)
    obtain ⟨hhalted, hfault⟩ | ⟨k, hk, rfl⟩ := exec_fatal_cases hexec
    · have hrun' : u.halted = false := by simpa [hrun] using hhalted
      rw [if_neg (by simp [hrun'])]
      exact .endCycle hmem hrun' (by simpa [hfault] using hinv.fault_none hrun) hdiag
    · have hfault : (State.takeFatal _ k).faultTrue := State.faultTrue_takeFatal (by simpa using hd) hk
      exact ⟨hmem, by simpa using hinv.soundFollows, by simp, fun _ => hfault, fun _ => hdiag⟩

end Sys2Proof.Machine
end

section
/-! What an instruction does not read (10_state.md R29, R39): the random byte, the keypad, the sound timer, and stack
slots not in use. -/

namespace Sys2Proof.Machine

/-! ### Fields an instruction does not read -/

/-- The state with the inputs, the sound timer and the stack slots replaced by functions of what they were. -/
def State.mapUnread (g : CycleInput → CycleInput) (h : Byte → Byte)
    (k : Vector Word stackDepth → Vector Word stackDepth) (s : State) : State :=
  { s with input := g s.input, st := h s.st, stack := k s.stack }

/-- The three functions leave what the instruction reads, or itself writes, of these fields as it is. -/
def KeepsWhatIsRead (g : CycleInput → CycleInput) (h : Byte → Byte)
    (k : Vector Word stackDepth → Vector Word stackDepth) : Instr → Prop
  | .rnd _ _         => ∀ n, (g n).rnd = n.rnd
  | .skp _ | .sknp _ => ∀ n, (g n).activeKey = n.activeKey
  | .ldXK _          => ∀ n, (g n).activeKey = n.activeKey ∧ (g n).keyDownEdge = n.keyDownEdge
  | .ldStX _         => ∀ b, h b = b
  | .call _ | .ret   => ∀ v, k v = v
  | .sys _ | .cls | .jp _ | .seImm _ _ | .sneImm _ _ | .seReg _ _ | .ldImm _ _ | .addImm _ _ | .ldReg _ _ | .or _ _
  | .and _ _ | .xor _ _ | .addReg _ _ | .sub _ _ | .shr _ _ | .subn _ _ | .shl _ _ | .sneReg _ _ | .ldI _ | .jpV0 _
  | .drw _ _ _ | .ldXDt _ | .ldDtX _ | .addI _ | .ldF _ | .ldB _ | .ldMemX _ | .ldXMem _ => True

theorem pressed_congr {s t : State} (b : Byte) (hkey : t.input.activeKey = s.input.activeKey) :
    pressed b t = pressed b s := by
  simp only [pressed, hkey]

theorem keyDown_congr {s t : State} (hkey : t.input.activeKey = s.input.activeKey)
    (hedge : t.input.keyDownEdge = s.input.keyDownEdge) : keyDown t = keyDown s := by
  simp only [keyDown, hkey, hedge]

section Unread

variable (g : CycleInput → CycleInput) (h : Byte → Byte) (k : Vector Word stackDepth → Vector Word stackDepth)

theorem State.storeBytes_mapUnread (s : State) (a : Nat) (bs : List Byte) :
    (s.mapUnread g h k).storeBytes a bs = (s.storeBytes a bs).mapUnread g h k := by
  induction bs generalizing s a with
  | nil => rfl
  | cons x rest ih => exact ih (s.writeByte a x) (a + 1)

theorem State.advanceIndex_mapUnread (s : State) (x : Reg) :
    (s.mapUnread g h k).advanceIndex x = (s.advanceIndex x).mapUnread g h k := by
  cases hadv : s.cfg.indexAdvance <;> simp [State.advanceIndex, State.mapUnread, State.setI, hadv]

theorem State.setIndexFlag_mapUnread (s : State) (sum : Nat) :
    (s.mapUnread g h k).setIndexFlag sum = (s.setIndexFlag sum).mapUnread g h k := by
  by_cases hsum : sum > 0x0FFF
  · simp only [State.setIndexFlag, if_pos hsum]
    rfl
  · cases hclear : s.cfg.fx1eVfClear with
    | true =>
      simp only [State.setIndexFlag, State.mapUnread, if_neg hsum, hclear, if_true]
      rfl
    | false => simp [State.setIndexFlag, State.mapUnread, hsum, hclear]

/-- An instruction does the same whatever the fields it does not read hold, those fields apart. -/
theorem exec_mapUnread {i : Instr} (hi : KeepsWhatIsRead g h k i) (s : State) :
    exec i (s.mapUnread g h k) = mapNext (State.mapUnread g h k) (exec i s) := by
  cases i
  case rnd x nn =>
    exact congrArg (fun b => Host.Outcome.next ((s.mapUnread g h k).setReg x (b &&& nn))) (hi s.input)
  case skp x =>
    have hpressed := pressed_congr (t := s.mapUnread g h k) (s.reg x) (hi s.input)
    exact congrArg (fun c => Host.Outcome.next ((s.mapUnread g h k).skipIf c)) hpressed
  case sknp x =>
    have hpressed := pressed_congr (t := s.mapUnread g h k) (s.reg x) (hi s.input)
    exact congrArg (fun c => Host.Outcome.next ((s.mapUnread g h k).skipIf (!c))) hpressed
  case ldXK x =>
    obtain ⟨hkey, hedge⟩ := hi s.input
    have hdown : keyDown (s.mapUnread g h k) = keyDown s := keyDown_congr hkey hedge
    obtain ⟨key, hs, e⟩ | ⟨hs, e⟩ := execLdXK_cases x s
    · obtain ⟨key', hs', e'⟩ | ⟨hs', _⟩ := execLdXK_cases x (s.mapUnread g h k)
      · obtain rfl : key' = key := by simpa [hdown, hs] using hs'.symm
        exact e'.trans (congrArg (mapNext (State.mapUnread g h k)) e).symm
      · simp [hdown, hs] at hs'
    · obtain ⟨_, hs', _⟩ | ⟨_, e'⟩ := execLdXK_cases x (s.mapUnread g h k)
      · simp [hdown, hs] at hs'
      · exact e'.trans (congrArg (mapNext (State.mapUnread g h k)) e).symm
  case ldStX x =>
    exact congrArg (fun b => Host.Outcome.next { s.mapUnread g h k with st := b }) (hi (s.reg x)).symm
  case call nnn =>
    obtain rfl : k = id := funext hi
    obtain ⟨hlt, e⟩ | ⟨hfull, e⟩ := execCall_cases nnn s
    · obtain ⟨_, e'⟩ | ⟨hfull', _⟩ := execCall_cases nnn (s.mapUnread g h id)
      · exact e'.trans (congrArg (mapNext (State.mapUnread g h id)) e).symm
      · exact absurd hfull' (Nat.ne_of_lt hlt)
    · obtain ⟨hlt', _⟩ | ⟨_, e'⟩ := execCall_cases nnn (s.mapUnread g h id)
      · exact absurd hfull (Nat.ne_of_lt hlt')
      · exact e'.trans (congrArg (mapNext (State.mapUnread g h id)) e).symm
  case ret =>
    obtain rfl : k = id := funext hi
    obtain ⟨hpos, e⟩ | ⟨hempty, e⟩ := execRet_cases s
    · obtain ⟨_, e'⟩ | ⟨hempty', _⟩ := execRet_cases (s.mapUnread g h id)
      · exact e'.trans (congrArg (mapNext (State.mapUnread g h id)) e).symm
      · exact absurd hempty' (Nat.ne_of_gt hpos)
    · obtain ⟨hpos', _⟩ | ⟨_, e'⟩ := execRet_cases (s.mapUnread g h id)
      · exact absurd hempty (Nat.ne_of_gt hpos')
      · exact e'.trans (congrArg (mapNext (State.mapUnread g h id)) e).symm
  case addI x =>
    exact congrArg Host.Outcome.next
      (State.setIndexFlag_mapUnread g h k (s.setI (trunc16 (s.i.toNat + (s.reg x).toNat))) _)
  case ldB x => exact congrArg Host.Outcome.next (State.storeBytes_mapUnread g h k s _ _)
  case ldMemX x =>
    have hstore := State.storeBytes_mapUnread g h k s s.i.toNat (regBlock x s)
    refine congrArg Host.Outcome.next (Eq.trans (congrArg (State.advanceIndex · x) hstore) ?_)
    exact State.advanceIndex_mapUnread g h k (s.storeBytes s.i.toNat (regBlock x s)) x
  case ldXMem x =>
    exact congrArg Host.Outcome.next (State.advanceIndex_mapUnread g h k (s.setRegs (loadedRegs x s)) x)
  all_goals rfl

end Unread

/-- Settles O55: another random byte replaces the inputs by ones that differ in what RND alone reads. -/
theorem onlyRndReadsRandomByte : Obligations.OnlyRndReadsRandomByte := by
  intro i s b hrnd
  refine exec_mapUnread (fun n => { n with rnd := b }) id id ?_ s
  cases i
  case rnd x nn => exact absurd rfl (hrnd x nn)
  case ldXK x => exact fun _ => ⟨rfl, rfl⟩
  case skp | sknp | ldStX | call | ret => exact fun _ => rfl
  all_goals trivial

/-- Settles O56: another key and edge leave the random byte, and another edge alone leaves the key that SKP and SKNP
read. -/
theorem onlyKeyInstructionsReadKeypad : Obligations.OnlyKeyInstructionsReadKeypad := by
  intro i s k e
  constructor
  · intro hskp hsknp hldXK
    refine exec_mapUnread (fun n => { n with activeKey := k, keyDownEdge := e }) id id ?_ s
    cases i
    case skp x => exact absurd rfl (hskp x)
    case sknp x => exact absurd rfl (hsknp x)
    case ldXK x => exact absurd rfl (hldXK x)
    case rnd | ldStX | call | ret => exact fun _ => rfl
    all_goals trivial
  · intro hldXK
    refine exec_mapUnread (fun n => { n with keyDownEdge := e }) id id ?_ s
    cases i
    case ldXK x => exact absurd rfl (hldXK x)
    case rnd | skp | sknp | ldStX | call | ret => exact fun _ => rfl
    all_goals trivial

/-- Settles O57: another ST is replaced only by FX18, which writes it without reading it. -/
theorem noInstructionReadsSoundTimer : Obligations.NoInstructionReadsSoundTimer := by
  intro i s b
  refine ⟨fun hst => ?_, fun x => rfl⟩
  refine exec_mapUnread id (fun _ => b) id ?_ s
  cases i
  case ldStX x => exact absurd rfl (hst x)
  case ldXK x => exact fun _ => ⟨rfl, rfl⟩
  case rnd | skp | sknp | call | ret => exact fun _ => rfl
  all_goals trivial

/-! ### Stale stack slots (10_state.md R29, R39) -/

/-- The slot CALL writes is the same in both states, and comes into use. -/
theorem execCall_agreeButStaleSlots (nnn : Addr) {s u : State} {k : Vector Word stackDepth}
    (hslots : ∀ j, (hj : j < stackDepth) → j < s.sp.val → k[j] = s.stack[j]) (hexec : execCall nnn s = .next u) :
    ∃ u', execCall nnn { s with stack := k } = .next u' ∧ agreeButStaleSlots u u' := by
  obtain ⟨hlt, e⟩ | ⟨hfull, e⟩ := execCall_cases nnn s
  · obtain ⟨_, e'⟩ | ⟨hfull', _⟩ := execCall_cases nnn { s with stack := k }
    · obtain rfl := next_unique e hexec
      refine ⟨_, e', rfl, fun j hj hused => ?_⟩
      change j < s.sp.val + 1 at hused
      simp only [Vector.getElem_set]
      split
      · rfl
      · exact hslots j hj (by omega)
    · exact absurd hfull' (Nat.ne_of_lt hlt)
  · obtain ⟨hlt', _⟩ | ⟨_, e'⟩ := execCall_cases nnn { s with stack := k }
    · exact absurd hfull (Nat.ne_of_lt hlt')
    · obtain rfl := next_unique e hexec
      exact ⟨_, e', rfl, hslots⟩

/-- The slot RET reads is in use, so both states return to the same address. -/
theorem execRet_agreeButStaleSlots {s u : State} {k : Vector Word stackDepth}
    (hslots : ∀ j, (hj : j < stackDepth) → j < s.sp.val → k[j] = s.stack[j]) (hexec : execRet s = .next u) :
    ∃ u', execRet { s with stack := k } = .next u' ∧ agreeButStaleSlots u u' := by
  obtain ⟨hpos, e⟩ | ⟨hempty, e⟩ := execRet_cases s
  · obtain ⟨_, e'⟩ | ⟨hempty', _⟩ := execRet_cases { s with stack := k }
    · obtain rfl := next_unique e hexec
      have hread : k[s.sp.val - 1] = s.stack[s.sp.val - 1] := hslots _ _ (by omega)
      refine ⟨_, e', ?_, fun j hj hused => hslots j hj ?_⟩
      · simp only [hread]
      · exact Nat.lt_of_lt_of_le hused (Nat.sub_le _ _)
    · exact absurd hempty' (Nat.ne_of_gt hpos)
  · obtain ⟨hpos', _⟩ | ⟨_, e'⟩ := execRet_cases { s with stack := k }
    · exact absurd hempty (Nat.ne_of_gt hpos')
    · obtain rfl := next_unique e hexec
      exact ⟨_, e', rfl, hslots⟩

/-- Every instruction carries other slots at and above SP along: CALL writes the slot at SP, RET reads the one below
it, no other instruction touches the stack. -/
theorem exec_agreeButStaleSlots {i : Instr} {s s' u : State} (hag : agreeButStaleSlots s s')
    (hexec : exec i s = .next u) : ∃ u', exec i s' = .next u' ∧ agreeButStaleSlots u u' := by
  obtain ⟨hs', hslots⟩ := hag
  by_cases hcall : ∃ nnn, i = .call nnn
  · obtain ⟨nnn, rfl⟩ := hcall
    rw [hs']
    exact execCall_agreeButStaleSlots nnn hslots hexec
  by_cases hret : i = .ret
  · subst hret
    rw [hs']
    exact execRet_agreeButStaleSlots hslots hexec
  · have hmap : s' = s.mapUnread id id (fun _ => s'.stack) := hs'
    have hcall' : ∀ nnn, i ≠ .call nnn := fun nnn h => hcall ⟨nnn, h⟩
    refine ⟨u.mapUnread id id (fun _ => s'.stack), ?_, rfl, ?_⟩
    · rw [hmap, exec_mapUnread, hexec]
      · rfl
      · cases i
        case call nnn => exact absurd rfl (hcall' nnn)
        case ret => exact absurd rfl hret
        case ldXK x => exact fun _ => ⟨rfl, rfl⟩
        case rnd | skp | sknp | ldStX => exact fun _ => rfl
        all_goals trivial
    · rw [exec_keeps_stack hexec hcall', exec_keeps_sp hexec hcall' hret]
      exact hslots

theorem settled_agreeButStaleSlots {u u' : State} (hag : agreeButStaleSlots u u') :
    agreeButStaleSlots u.settled u'.settled := by
  have hhalted : u'.halted = u.halted := (congrArg State.halted hag.1 :)
  cases hh : u.halted with
  | true => rwa [State.settled_of_halted hh, State.settled_of_halted (hhalted.trans hh)]
  | false =>
    obtain ⟨hu', hslots⟩ := hag
    rw [State.settled_of_running hh, State.settled_of_running (hhalted.trans hh)]
    exact ⟨by rw [hu']; rfl, hslots⟩

theorem beginCycle_agreeButStaleSlots {s s' : State} (hag : agreeButStaleSlots s s') :
    agreeButStaleSlots s.beginCycle s'.beginCycle := by
  obtain ⟨hs', hslots⟩ := hag
  refine ⟨?_, by simpa using hslots⟩
  rw [State.beginCycle_stack, State.beginCycle, State.sampleInput]
  rw [hs']
  unfold State.beginCycle State.sampleInput
  cases s.pending <;> rfl

theorem fetched_agreeButStaleSlots {s s' : State} (hag : agreeButStaleSlots s s') (r : Bool) :
    agreeButStaleSlots (s.beginCycle.fetch.report r) (s'.beginCycle.fetch.report r) := by
  obtain ⟨hs', hslots⟩ := beginCycle_agreeButStaleSlots hag
  refine ⟨?_, hslots⟩
  rw [hs']
  rfl

/-- Settles O54: each part of a cycle keeps the agreement, and both states fetch the same word. -/
theorem staleStackSlotsAreUnobservable : Obligations.StaleStackSlotsAreUnobservable := by
  intro s s' t hag hstep
  have hhalted : s'.halted = s.halted := (congrArg State.halted hag.1 :)
  have hdecode : decodeWord s'.cfg s'.fetchWord = decodeWord s.cfg s.fetchWord := by rw [hag.1]; rfl
  obtain ⟨hh, rfl⟩ | ⟨hrun, ⟨e, he⟩, rfl⟩ | ⟨hrun, i, u, hd, hexec, rfl⟩ := step_cases hstep
  · exact ⟨_, step_of_halted (hhalted.trans hh), beginCycle_agreeButStaleSlots hag⟩
  · refine ⟨_, step_of_unrecognized (hhalted.trans hrun) (hdecode.trans he), ?_⟩
    obtain ⟨hs', hslots⟩ := fetched_agreeButStaleSlots hag false
    exact ⟨by rw [hs']; rfl, hslots⟩
  · obtain ⟨u', hexec', hag'⟩ := exec_agreeButStaleSlots (fetched_agreeButStaleSlots hag true) hexec
    exact ⟨_, step_of_exec (hhalted.trans hrun) (hdecode.trans hd) hexec', settled_agreeButStaleSlots hag'⟩

end Sys2Proof.Machine
end

section
/-! Decode and encode (30_encoding.md): the two round trips, and the words that are no instruction. -/

namespace Sys2Proof

/-! ### Decoding an encoding -/

theorem fieldNN_packNNN (f : BitVec 4) (nnn : Addr) : fieldNN (packNNN f nnn) = nnn.extractLsb' 0 8 := by
  apply BitVec.eq_of_toNat_eq
  simp only [toNat_fieldNN, toNat_packNNN, BitVec.extractLsb'_toNat, Nat.shiftRight_zero]
  omega

theorem decodeFamily0_cls (cfg : Config) : decodeFamily0 cfg 0x00E0#16 = .cls := by
  unfold decodeFamily0
  cases cfg.family0Match <;> rfl

theorem decodeFamily0_ret (cfg : Config) : decodeFamily0 cfg 0x00EE#16 = .ret := by
  unfold decodeFamily0
  cases cfg.family0Match <;> rfl

/-- A SYS address that passes the check of R130 is neither the word of CLS nor that of RET. -/
theorem decodeFamily0_sys {cfg : Config} {nnn : Addr} (h : sysAddrOk cfg nnn = true) :
    decodeFamily0 cfg (packNNN 0x0#4 nnn) = .sys nnn := by
  unfold decodeFamily0
  unfold sysAddrOk at h
  cases hm : cfg.family0Match with
  | fullWord =>
    simp only [hm, Bool.and_eq_true, bne_iff_ne] at h ⊢
    obtain ⟨hcls, hret⟩ := h
    have hE0 : packNNN 0x0#4 nnn ≠ 0x00E0#16 := fun e =>
      hcls ((fieldNNN_packNNN _ _).symm.trans (congrArg fieldNNN e))
    have hEE : packNNN 0x0#4 nnn ≠ 0x00EE#16 := fun e =>
      hret ((fieldNNN_packNNN _ _).symm.trans (congrArg fieldNNN e))
    rw [if_neg hE0, if_neg hEE, fieldNNN_packNNN]
  | lowByte =>
    simp only [hm, Bool.and_eq_true, bne_iff_ne] at h ⊢
    obtain ⟨hcls, hret⟩ := h
    rw [fieldNN_packNNN, if_neg hcls, if_neg hret, fieldNNN_packNNN]

/-- Family by family, the fields of a packed word are the operands packed into it. -/
theorem decodeWord_encode {cfg : Config} {i : Instr} (h : i.wellFormed cfg = true) :
    decodeWord cfg (encode i) = .ok i := by
  cases i
  case sys nnn => rw [encode, decodeWord_family0 cfg (fieldF_packNNN _ _), decodeFamily0_sys h]
  case cls => rw [encode, decodeWord_family0 cfg rfl, decodeFamily0_cls]
  case ret => rw [encode, decodeWord_family0 cfg rfl, decodeFamily0_ret]
  case jp | call | ldI | jpV0 => simp [encode, decodeWord]
  case seImm | sneImm | ldImm | addImm | rnd | drw => simp [encode, decodeWord]
  case seReg => simp [encode, decodeWord, decodeFamily5]
  case sneReg => simp [encode, decodeWord, decodeFamily9]
  case ldReg | or | and | xor | addReg | sub | shr | subn | shl => simp [encode, decodeWord, decodeFamily8]
  case skp | sknp => simp [encode, decodeWord, decodeFamilyE]
  case ldXDt | ldXK | ldDtX | ldStX | addI | ldF | ldB | ldMemX | ldXMem => simp [encode, decodeWord, decodeFamilyF]

/-- Two bytes and any bytes after them decode as their word does. -/
theorem decode_of_decodeWord {cfg : Config} {w : Word} {i : Instr} (h : decodeWord cfg w = .ok i) (rest : List Byte) :
    decode cfg (highByte w :: lowByte w :: rest) = .ok (i, rest) := by
  simp only [decode, joinBytes_highByte_lowByte, h]

/-- Settles O13, the word by `decodeWord_encode` and its two bytes by `decode_of_decodeWord`. -/
theorem decodeInvertsEncode : Obligations.DecodeInvertsEncode :=
  fun _ _ h => ⟨decodeWord_encode h, decode_of_decodeWord (decodeWord_encode h)⟩

/-! ### Encoding a decoded word -/

theorem fieldF_cases (w : Word) :
    fieldF w = 0x0#4 ∨ fieldF w = 0x1#4 ∨ fieldF w = 0x2#4 ∨ fieldF w = 0x3#4 ∨ fieldF w = 0x4#4 ∨ fieldF w = 0x5#4 ∨
    fieldF w = 0x6#4 ∨ fieldF w = 0x7#4 ∨ fieldF w = 0x8#4 ∨ fieldF w = 0x9#4 ∨ fieldF w = 0xA#4 ∨ fieldF w = 0xB#4 ∨
    fieldF w = 0xC#4 ∨ fieldF w = 0xD#4 ∨ fieldF w = 0xE#4 ∨ fieldF w = 0xF#4 := by
  generalize fieldF w = f
  revert f
  decide

theorem packNNN_of_fields {w : Word} {f : BitVec 4} (hf : fieldF w = f) : packNNN f (fieldNNN w) = w := by
  apply BitVec.eq_of_toNat_eq
  rw [toNat_packNNN, ← hf, toNat_fieldF, toNat_fieldNNN]
  omega

theorem packXNN_of_fields {w : Word} {f : BitVec 4} {nn : Byte} (hf : fieldF w = f) (hn : fieldNN w = nn) :
    packXNN f (fieldX w) nn = w := by
  apply BitVec.eq_of_toNat_eq
  rw [toNat_packXNN, ← hf, ← hn, toNat_fieldF, val_fieldX, toNat_fieldNN]
  omega

theorem packXYN_of_fields {w : Word} {f n : BitVec 4} (hf : fieldF w = f) (hn : fieldN w = n) :
    packXYN f (fieldX w) (fieldY w) n = w := by
  apply BitVec.eq_of_toNat_eq
  rw [toNat_packXYN, ← hf, ← hn, toNat_fieldF, val_fieldX, val_fieldY, toNat_fieldN]
  omega

theorem packXYN_and_lowNibble (f : BitVec 4) (x y : Reg) (n : BitVec 4) :
    packXYN f x y n &&& 0xFFF0#16 = packXYN f x y 0x0#4 := by
  rw [packXYN, packXYN, show 0xFFF0#16 = 0xF#4 ++ 0xF#4 ++ 0xF#4 ++ 0x0#4 from rfl, BitVec.and_append,
    BitVec.and_append, BitVec.and_append, BitVec.and_zero, show 0xF#4 = BitVec.allOnes 4 from rfl, BitVec.and_allOnes,
    BitVec.and_allOnes, BitVec.and_allOnes]

/-- Without the low nibble, which families 5 and 9 do not look at. -/
theorem packXYN_zero_of_fields {w : Word} {f : BitVec 4} (hf : fieldF w = f) :
    packXYN f (fieldX w) (fieldY w) 0x0#4 = w &&& 0xFFF0#16 := by
  rw [← packXYN_and_lowNibble f _ _ (fieldN w), packXYN_of_fields hf rfl]

/-- A family 0 word with the low byte of CLS or RET is that word but for its second nibble. -/
theorem and_eq_of_family0 {w : Word} {nn : Byte} (hf : fieldF w = 0x0#4) (hn : fieldNN w = nn) :
    w &&& 0xF0FF#16 = 0x0#4 ++ 0x0#4 ++ nn := by
  rw [← packXNN_of_fields hf hn, Laws.TableRow.packX_and]

/-- Family 0: CLS and RET lose the second nibble, a SYS address passes the check of R130. -/
theorem decodeFamily0_cases (cfg : Config) {w : Word} (hf : fieldF w = 0x0#4) :
    (decodeFamily0 cfg w = .cls ∧ w &&& 0xF0FF#16 = 0x00E0#16) ∨
    (decodeFamily0 cfg w = .ret ∧ w &&& 0xF0FF#16 = 0x00EE#16) ∨
    (decodeFamily0 cfg w = .sys (fieldNNN w) ∧ sysAddrOk cfg (fieldNNN w) = true) := by
  have hw : packNNN 0x0#4 (fieldNNN w) = w := packNNN_of_fields hf
  unfold decodeFamily0 sysAddrOk
  cases cfg.family0Match with
  | fullWord =>
    dsimp only
    split
    · next hcls => exact .inl ⟨rfl, by rw [hcls]; rfl⟩
    split
    · next hret => exact .inr (.inl ⟨rfl, by rw [hret]; rfl⟩)
    · next hcls hret =>
      refine .inr (.inr ⟨rfl, ?_⟩)
      rw [Bool.and_eq_true, bne_iff_ne, bne_iff_ne]
      exact ⟨fun e => hcls (by rw [← hw, e]; rfl), fun e => hret (by rw [← hw, e]; rfl)⟩
  | lowByte =>
    dsimp only
    split
    · next hcls => exact .inl ⟨rfl, and_eq_of_family0 hf hcls⟩
    split
    · next hret => exact .inr (.inl ⟨rfl, and_eq_of_family0 hf hret⟩)
    · next hcls hret =>
      refine .inr (.inr ⟨rfl, ?_⟩)
      rw [Bool.and_eq_true, bne_iff_ne, bne_iff_ne, ← fieldNN_packNNN 0x0#4, hw]
      exact ⟨hcls, hret⟩

/-- Settles O14, family by family: the operands are the word's fields, so packing them gives the word. -/
theorem encodeRecoversDecodedWord : Obligations.EncodeRecoversDecodedWord := by
  intro cfg w i hd
  rcases fieldF_cases w with
    hf | hf | hf | hf | hf | hf | hf | hf | hf | hf | hf | hf | hf | hf | hf | hf
  · rw [decodeWord_family0 cfg hf] at hd
    obtain ⟨e, hw⟩ | ⟨e, hw⟩ | ⟨e, hok⟩ := decodeFamily0_cases cfg hf <;> rw [e] at hd <;> cases hd
    · exact ⟨rfl, hw.symm⟩
    · exact ⟨rfl, hw.symm⟩
    · exact ⟨hok, packNNN_of_fields hf⟩
  · obtain rfl := Except.ok.inj ((decodeWord_family1 cfg hf).symm.trans hd)
    exact ⟨rfl, packNNN_of_fields hf⟩
  · obtain rfl := Except.ok.inj ((decodeWord_family2 cfg hf).symm.trans hd)
    exact ⟨rfl, packNNN_of_fields hf⟩
  · obtain rfl := Except.ok.inj ((decodeWord_family3 cfg hf).symm.trans hd)
    exact ⟨rfl, packXNN_of_fields hf rfl⟩
  · obtain rfl := Except.ok.inj ((decodeWord_family4 cfg hf).symm.trans hd)
    exact ⟨rfl, packXNN_of_fields hf rfl⟩
  · rw [decodeWord_family5 cfg hf, decodeFamily5] at hd
    split at hd <;> cases hd
    exact ⟨rfl, packXYN_zero_of_fields hf⟩
  · obtain rfl := Except.ok.inj ((decodeWord_family6 cfg hf).symm.trans hd)
    exact ⟨rfl, packXNN_of_fields hf rfl⟩
  · obtain rfl := Except.ok.inj ((decodeWord_family7 cfg hf).symm.trans hd)
    exact ⟨rfl, packXNN_of_fields hf rfl⟩
  · rw [decodeWord_family8 cfg hf, decodeFamily8] at hd
    split at hd <;> cases hd <;> exact ⟨rfl, packXYN_of_fields hf ‹_›⟩
  · rw [decodeWord_family9 cfg hf, decodeFamily9] at hd
    split at hd <;> cases hd
    exact ⟨rfl, packXYN_zero_of_fields hf⟩
  · obtain rfl := Except.ok.inj ((decodeWord_familyA cfg hf).symm.trans hd)
    exact ⟨rfl, packNNN_of_fields hf⟩
  · obtain rfl := Except.ok.inj ((decodeWord_familyB cfg hf).symm.trans hd)
    exact ⟨rfl, packNNN_of_fields hf⟩
  · obtain rfl := Except.ok.inj ((decodeWord_familyC cfg hf).symm.trans hd)
    exact ⟨rfl, packXNN_of_fields hf rfl⟩
  · obtain rfl := Except.ok.inj ((decodeWord_familyD cfg hf).symm.trans hd)
    exact ⟨rfl, packXYN_of_fields hf rfl⟩
  · rw [decodeWord_familyE cfg hf, decodeFamilyE] at hd
    split at hd <;> cases hd <;> exact ⟨rfl, packXNN_of_fields hf ‹_›⟩
  · rw [decodeWord_familyF cfg hf, decodeFamilyF] at hd
    split at hd <;> cases hd <;> exact ⟨rfl, packXNN_of_fields hf ‹_›⟩

/-! ### The unrecognised words (R88) -/

theorem strict59_and_lowNibble_iff (cfg : Config) (w : Word) :
    (cfg.strict59 && fieldN w != 0#4) = true ↔ cfg.strict59 = true ∧ w.toNat % 16 ≠ 0 := by
  rw [Bool.and_eq_true, bne_iff_ne, ← toNat_fieldN, ne_eq, ne_eq, ← BitVec.toNat_inj]
  rfl

theorem decodeFamily5_error_iff (cfg : Config) (w : Word) :
    (∃ e, decodeFamily5 cfg w = .error e) ↔ cfg.strict59 = true ∧ w.toNat % 16 ≠ 0 := by
  rw [← strict59_and_lowNibble_iff, decodeFamily5]
  split <;> simp_all

theorem decodeFamily9_error_iff (cfg : Config) (w : Word) :
    (∃ e, decodeFamily9 cfg w = .error e) ↔ cfg.strict59 = true ∧ w.toNat % 16 ≠ 0 := by
  rw [← strict59_and_lowNibble_iff, decodeFamily9]
  split <;> simp_all

theorem decodeFamily8_error_iff (w : Word) :
    (∃ e, decodeFamily8 w = .error e) ↔ w.toNat % 16 ∉ [0, 1, 2, 3, 4, 5, 6, 7, 14] := by
  rw [← toNat_fieldN]
  unfold decodeFamily8
  split <;> simp_all [← BitVec.toNat_inj]

theorem decodeFamilyE_error_iff (w : Word) :
    (∃ e, decodeFamilyE w = .error e) ↔ w.toNat % 256 ∉ [0x9E, 0xA1] := by
  rw [← toNat_fieldNN]
  unfold decodeFamilyE
  split <;> simp_all [← BitVec.toNat_inj]

theorem decodeFamilyF_error_iff (w : Word) :
    (∃ e, decodeFamilyF w = .error e) ↔ w.toNat % 256 ∉ [0x07, 0x0A, 0x15, 0x18, 0x1E, 0x29, 0x33, 0x55, 0x65] := by
  rw [← toNat_fieldNN]
  unfold decodeFamilyF
  split <;> simp_all [← BitVec.toNat_inj]

theorem div_of_fieldF {w : Word} {f : BitVec 4} (hf : fieldF w = f) : w.toNat / 4096 = f.toNat := by
  rw [← hf, toNat_fieldF]

/-- Settles O15: every word of the other families is an instruction, and each of these families has its own
equivalence. -/
theorem unrecognizedWordsAreExactlyR88 : Obligations.UnrecognizedWordsAreExactlyR88 := by
  intro cfg w
  rcases fieldF_cases w with
    hf | hf | hf | hf | hf | hf | hf | hf | hf | hf | hf | hf | hf | hf | hf | hf <;> rw [div_of_fieldF hf]
  · simp [decodeWord_family0 cfg hf]
  · simp [decodeWord_family1 cfg hf]
  · simp [decodeWord_family2 cfg hf]
  · simp [decodeWord_family3 cfg hf]
  · simp [decodeWord_family4 cfg hf]
  · rw [decodeWord_family5 cfg hf, decodeFamily5_error_iff]
    simp
  · simp [decodeWord_family6 cfg hf]
  · simp [decodeWord_family7 cfg hf]
  · rw [decodeWord_family8 cfg hf, decodeFamily8_error_iff]
    simp
  · rw [decodeWord_family9 cfg hf, decodeFamily9_error_iff]
    simp
  · simp [decodeWord_familyA cfg hf]
  · simp [decodeWord_familyB cfg hf]
  · simp [decodeWord_familyC cfg hf]
  · simp [decodeWord_familyD cfg hf]
  · rw [decodeWord_familyE cfg hf, decodeFamilyE_error_iff]
    simp
  · rw [decodeWord_familyF cfg hf, decodeFamilyF_error_iff]
    simp

/-- Settles O16: the decoder evaluated on each of the eight words. -/
theorem writtenWordsDecode : Obligations.WrittenWordsDecode := by
  unfold Obligations.WrittenWordsDecode
  decide

end Sys2Proof
end

section
/-! Steps (40_cycle.md): what a cycle reports, ticks and leaves unchanged. -/

namespace Sys2Proof.Machine

/-! ### What a step answers -/

/-- Settles O1: the state `exec` runs in is the one `State.fetched_eq` writes out. -/
theorem stepRunsDecodedInstruction : Obligations.StepRunsDecodedInstruction := by
  intro s w hrun hw
  obtain rfl : w = s.fetchWord := hw
  refine ⟨fun i hd => ?_, fun e he => ?_, settle_next⟩
  · rw [step_of_decoded hrun hd, State.fetched_eq, State.beginCycle_eq]
  · rw [step_of_unrecognized hrun he, State.fetched_eq, State.beginCycle_eq, settle_next]
    exact congrArg Host.Outcome.next (if_neg (by simp [hrun])).symm

/-- Settles O2: the no-op leaves the fetched state to the end of the cycle. -/
theorem unrecognizedWordIsReportedNoOp : Obligations.UnrecognizedWordIsReportedNoOp := by
  intro s e hrun he
  rw [step_of_unrecognized hrun he, State.fetched_eq]
  exact ⟨_, rfl, rfl, rfl, rfl, rfl, rfl, rfl, timerAfter_toNat _ _, timerAfter_toNat _ _, rfl, rfl⟩

/-- Settles O3: a halted step is the start of a cycle and no more. -/
theorem haltedCoreIgnoresSteps : Obligations.HaltedCoreIgnoresSteps :=
  fun s h => ⟨s.beginCycle, step_of_halted h, State.beginCycle_eq s⟩

/-- Settles O4: the condition is raised in the fetched state, whose stack is that of `s`, and a halted state is not
ended. -/
theorem fatalCycleRecordsFault : Obligations.FatalCycleRecordsFault := by
  intro s i k hrun hd hfatal
  have hraises : Raises i (s.beginCycle.fetch.report true) k := by
    obtain ⟨hcall, hsp, rfl⟩ | ⟨hret, hsp, rfl⟩ := hfatal
    · exact ⟨by simpa using hsp, hcall⟩
    · exact ⟨by simpa using hsp, hret⟩
  refine ⟨_, step_of_exec hrun hd (exec_of_raises hraises), ?_⟩
  rw [State.settled_of_halted (State.takeFatal_halted _ k), State.fetched_eq]
  have hpc : s.pc + 2 - 2 = s.pc := BitVec.add_sub_cancel _ _
  exact ⟨rfl, by simp only [State.takeFatal_fault, hpc], rfl, rfl⟩

/-- Settles O6: every instruction answers a next state, and so does every other way through a step. -/
theorem everyStepAnswersNext : Obligations.EveryStepAnswersNext := by
  intro s
  cases hh : s.halted with
  | true => exact ⟨_, step_of_halted hh⟩
  | false =>
    cases hd : decodeWord s.cfg s.fetchWord with
    | error e => exact ⟨_, step_of_unrecognized hh hd⟩
    | ok i =>
      obtain ⟨u, hu⟩ := exec_answers_next i (s.beginCycle.fetch.report true)
      exact ⟨_, step_of_exec hh hd hu⟩

/-- A running step of any word: the instruction has no effect, or the one `exec` gives, and the cycle is settled. -/
theorem step_running {s t : State} (hrun : s.halted = false) (h : step s = .next t) :
    ∃ r u, t = u.settled ∧
      (((∃ e, decodeWord s.cfg s.fetchWord = .error e) ∧ u = s.beginCycle.fetch.report r) ∨
        ∃ i, decodeWord s.cfg s.fetchWord = .ok i ∧ exec i (s.beginCycle.fetch.report r) = .next u) := by
  obtain ⟨hh, _⟩ | ⟨_, he, rfl⟩ | ⟨_, i, u, hd, hexec, rfl⟩ := step_cases h
  · exact absurd (hrun.symm.trans hh) Bool.false_ne_true
  · exact ⟨false, _, (State.settled_of_running (by simpa using hrun)).symm, .inl ⟨he, rfl⟩⟩
  · exact ⟨true, u, rfl, .inr ⟨i, hd, hexec⟩⟩

/-- Every running step, fatal or not, holds the fetched word in `op` and reports it (40_cycle.md R112). -/
theorem step_reports_fetch {s t : State} (hrun : s.halted = false) (h : step s = .next t) :
    t.op = s.fetchWord ∧ t.diagValid = true ∧ t.diagAddr = s.pc ∧ t.diagOpcode = s.fetchWord := by
  obtain ⟨r, u, rfl, ⟨_, rfl⟩ | ⟨i, _, hexec⟩⟩ := step_running hrun h
  · simp
  · obtain ⟨hop, -, hvalid, haddr, hopcode, -⟩ := exec_keeps_outputs hexec
    simp [hop, hvalid, haddr, hopcode]

/-- Running states that decode the same word and fetch into the same state step alike. -/
theorem step_congr {s s' : State} (hrun : s.halted = false) (hrun' : s'.halted = false)
    (hword : decodeWord s'.cfg s'.fetchWord = decodeWord s.cfg s.fetchWord)
    (hfetched : ∀ c, s'.beginCycle.fetch.report c = s.beginCycle.fetch.report c) : step s' = step s := by
  cases hd : decodeWord s.cfg s.fetchWord with
  | error e => rw [step_of_unrecognized hrun hd, step_of_unrecognized hrun' (hword.trans hd), hfetched]
  | ok i => rw [step_of_decoded hrun hd, step_of_decoded hrun' (hword.trans hd), hfetched]

/-- The start of a cycle does not read `op` or an output of the cycle before. -/
theorem fetched_with_outputs (s : State) (w a o : Word) (f d r c : Bool) :
    { s with op := w, fbUpdated := f, diagValid := d, diagAddr := a, diagOpcode := o,
             diagRecognized := r }.beginCycle.fetch.report c = s.beginCycle.fetch.report c := by
  unfold State.beginCycle State.sampleInput
  cases s.pending <;> rfl

/-- Settles O53: the fetch overwrites what the old `op` and outputs held. -/
theorem opcodeAndOutputsDoNotCarry : Obligations.OpcodeAndOutputsDoNotCarry := by
  intro s w a o f d r hrun
  constructor
  · obtain ⟨t, ht⟩ := everyStepAnswersNext s
    exact ⟨t, ht, (step_reports_fetch hrun ht).1⟩
  · exact step_congr hrun hrun rfl (fetched_with_outputs s w a o f d r)

/-! ### What a step leaves unchanged -/

theorem step_keeps_cfg {s t : State} (h : step s = .next t) : t.cfg = s.cfg := by
  cases hh : s.halted with
  | true =>
    obtain rfl := next_unique (step_of_halted hh) h
    exact State.beginCycle_cfg s
  | false =>
    obtain ⟨r, u, rfl, ⟨_, rfl⟩ | ⟨i, _, hexec⟩⟩ := step_running hh h
    · simp
    · simp [exec_keeps_cfg hexec]

/-- Settles O52: a Load stores bytes, Reset copies the configuration. -/
theorem configurationNeverChanges : Obligations.ConfigurationNeverChanges := by
  rintro s t buf (h | rfl | rfl)
  · exact step_keeps_cfg h
  · unfold State.load
    split
    · rfl
    · exact State.storeBytes_cfg s programBase buf
  · rfl

/-- Settles O45: the start of a cycle lowers `fb_updated`, and `exec_fb` says which instruction raises it. -/
theorem onlyDisplayInstructionsWriteFramebuffer : Obligations.OnlyDisplayInstructionsWriteFramebuffer := by
  intro s t h
  cases hh : s.halted with
  | true =>
    obtain rfl := next_unique (step_of_halted hh) h
    simp
  | false =>
    obtain ⟨r, u, rfl, ⟨⟨e, he⟩, rfl⟩ | ⟨i, hd, hexec⟩⟩ := step_running hh h
    · simp [he]
    · obtain ⟨hi, hup⟩ | ⟨hi, hup, hfb⟩ := exec_fb hexec
      · simpa [hd, hup] using hi
      · simpa [hd, hup, hfb] using hi

/-- Settles O50: a running step changes memory by its instruction alone, a halted one not at all. -/
theorem memoryHasNoOtherWriters : Obligations.MemoryHasNoOtherWriters := by
  intro s t a hwf h hne
  cases hh : s.halted with
  | true =>
    obtain rfl := next_unique (step_of_halted hh) h
    exact absurd (State.readByte_of_mem_eq (State.beginCycle_mem s) (State.beginCycle_cfg s) a) hne
  | false =>
    obtain ⟨r, u, rfl, ⟨_, rfl⟩ | ⟨i, hd, hexec⟩⟩ := step_running hh h
    · exact absurd (State.readByte_of_mem_eq (by simp) (by simp) a) hne
    · refine ⟨rfl, i, hd, ?_⟩
      by_contra hout
      have hu := exec_keeps_byte hexec (a := a) (by simpa using hwf) (by simpa using hout)
      have ht : u.settled.readByte a = u.readByte a := State.readByte_of_mem_eq u.settled_mem u.settled_cfg a
      have hs : (s.beginCycle.fetch.report r).readByte a = s.readByte a :=
        State.readByte_of_mem_eq (by simp) (by simp) a
      exact hne (ht.trans (hu.trans hs))

/-- Settles O49, as the contrapositive of `exec_keeps_reg`. -/
theorem registersHaveNoOtherWriters : Obligations.RegistersHaveNoOtherWriters := by
  intro i s t r hexec hne
  by_contra hr
  exact hne (exec_keeps_reg hexec hr)

/-- Settles O51: each clause is the contrapositive of the field's own frame lemma. -/
theorem specialRegistersHaveNoOtherWriters : Obligations.SpecialRegistersHaveNoOtherWriters := by
  intro i s t h
  refine ⟨fun hne => ?_, fun hne => ?_, fun hne => ?_, fun hne => ?_, fun hne => ?_, fun hne => ?_,
    exec_keeps_outputs h⟩ <;> by_contra hi
  · exact hne (exec_keeps_pc h hi)
  · obtain ⟨hret, hcall⟩ := not_or.1 hi
    exact hne (exec_keeps_sp h (not_exists.1 hcall) hret)
  · exact hne (exec_keeps_stack h (not_exists.1 hi))
  · exact hne (exec_keeps_index h hi)
  · exact hne (exec_keeps_dt h (not_exists.1 hi))
  · exact hne (exec_keeps_st h (not_exists.1 hi))

/-! ### Timers -/

/-- The timers of a cycle that did not halt lose its ticks from what execute left (40_cycle.md R118). -/
theorem settled_timers {u : State} (hrun : u.halted = false) :
    u.settled.dt.toNat = u.dt.toNat - u.input.ticks ∧ u.settled.st.toNat = u.st.toNat - u.input.ticks ∧
    (u.settled.soundOn = true ↔ u.settled.st.toNat ≠ 0) := by
  rw [State.settled_of_running hrun]
  refine ⟨timerAfter_toNat _ _, timerAfter_toNat _ _, ?_⟩
  rw [State.endCycle_st, timerAfter_toNat]
  exact timerAfter_ne_zero _ _

/-- FX15 writes DT from its register; no other instruction writes DT. -/
theorem exec_dt {i : Instr} {s t : State} (h : exec i s = .next t) :
    (∀ x, i = .ldDtX x → t.dt = s.reg x) ∧ ((∀ x, i ≠ .ldDtX x) → t.dt = s.dt) := by
  refine ⟨?_, exec_keeps_dt h⟩
  rintro x rfl
  obtain rfl := Host.Outcome.next.inj h
  rfl

/-- FX18 writes ST from its register; no other instruction writes ST. -/
theorem exec_st {i : Instr} {s t : State} (h : exec i s = .next t) :
    (∀ x, i = .ldStX x → t.st = s.reg x) ∧ ((∀ x, i ≠ .ldStX x) → t.st = s.st) := by
  refine ⟨?_, exec_keeps_st h⟩
  rintro x rfl
  obtain rfl := Host.Outcome.next.inj h
  rfl

/-- Settles O5: the timers `exec` leaves, less the ticks that `State.sampleInput` took. -/
theorem timersLoseTicksAfterExecute : Obligations.TimersLoseTicksAfterExecute := by
  intro s t hrun h ht
  obtain ⟨r, u, rfl, hu⟩ := step_running hrun h
  obtain ⟨hdt, hst, hsound⟩ := settled_timers (by simpa using ht)
  rw [hdt, hst]
  obtain ⟨⟨e, he⟩, rfl⟩ | ⟨i, hd, hexec⟩ := hu
  · simp [he, hsound, hst]
  · obtain ⟨-, -, -, -, -, -, hinput, -⟩ := exec_keeps_outputs hexec
    obtain ⟨hdtSet, hdtKept⟩ := exec_dt hexec
    obtain ⟨hstSet, hstKept⟩ := exec_st hexec
    have hreg (x : Reg) : (s.beginCycle.fetch.report r).reg x = s.reg x := State.reg_eq_of_v_eq (by simp) x
    simp only [hreg, State.report_dt, State.fetch_dt, State.beginCycle_dt, State.report_st, State.fetch_st,
      State.beginCycle_st] at hdtSet hdtKept hstSet hstKept
    have hticks : u.input.ticks = s.sampleInput.input.ticks := by simp [hinput]
    simp only [hd, hticks, Except.ok.injEq, ne_eq]
    refine ⟨fun x hx => ?_, fun hx => ?_, fun x hx => ?_, fun hx => ?_, by rwa [hst, hticks] at hsound⟩
    · rw [hdtSet x hx]
    · rw [hdtKept hx]
    · rw [hstSet x hx]
    · rw [hstKept hx]

/-! ### Steps that stay where they are -/

/-- Settles O8: the jump to P puts `pc` back at P, over the same memory. -/
theorem idleProgramStaysIdle : Obligations.IdleProgramStaysIdle := by
  rintro p s ⟨hrun, hpc, hword⟩
  have hd : decodeWord s.cfg s.fetchWord = .ok (.jp p) := by
    rw [hword]
    exact decodeWord_encode (i := .jp p) rfl
  have hexec : exec (.jp p) (s.beginCycle.fetch.report true) = .next ((s.beginCycle.fetch.report true).setPc s.pc) := by
    rw [hpc]
    rfl
  refine ⟨_, step_of_exec hrun hd hexec, ?_⟩
  rw [State.settled_of_running (by simpa using hrun), State.fetched_eq]
  exact ⟨⟨hrun, hpc, hword⟩, hword, rfl⟩

/-- Settles O48: without a key-down event the instruction takes back the fetch advance and writes nothing else. -/
theorem waitingStepRefetchesKeyWait : Obligations.WaitingStepRefetchesKeyWait := by
  intro x s hrun hd hquiet
  have hexec : exec (.ldXK x) (s.beginCycle.fetch.report true) =
      .next ((s.beginCycle.fetch.report true).setPc s.pc) := by
    obtain ⟨k, hk, _⟩ | ⟨_, e⟩ := execLdXK_cases x (s.beginCycle.fetch.report true)
    · rw [keyDown_eq_none.2 (by simpa using hquiet)] at hk
      cases hk
    · rw [State.report_pc, State.fetch_pc, State.beginCycle_pc, BitVec.add_sub_cancel] at e
      exact e
  refine ⟨_, step_of_exec hrun hd hexec, ?_⟩
  rw [State.settled_of_running (by simpa using hrun), State.fetched_eq]
  exact ⟨hrun, rfl, rfl, rfl, rfl, rfl, rfl, rfl, fun _ => rfl, timerAfter_toNat _ _, timerAfter_toNat _ _⟩

end Sys2Proof.Machine
end

section
/-! Reset and Load (70_reset_and_hazards.md, 20_memory.md R68): the values after Reset, the program in memory, the first
cycle. -/

namespace Sys2Proof.Machine

/-! ### Reset -/

/-- After Reset memory lists nothing, so the font region reads as the configured font (20_memory.md R54). -/
theorem State.hostReset_readByte_font (s : State) {a : Nat} (h : a < 80) : s.hostReset.readByte a = s.cfg.font[a] := by
  have hmod : a % memSize = a := Nat.mod_eq_of_lt (by simp only [memSize]; omega)
  change resetByte s.cfg.font (a % memSize) = _
  rw [hmod, resetByte, dif_pos h]

/-- After Reset every byte above the font region is zero. -/
theorem State.hostReset_readByte_zero (s : State) {a : Nat} (hlo : 80 ≤ a) (hhi : a < 4096) :
    s.hostReset.readByte a = 0 := by
  have hmod : a % memSize = a := Nat.mod_eq_of_lt hhi
  change resetByte s.cfg.font (a % memSize) = _
  rw [hmod, resetByte, dif_neg (by simp only [fontSize]; omega)]

/-- Settles O10, the two parts of memory by their own lemmas. -/
theorem hostResetReconstructs : Obligations.HostResetReconstructs :=
  fun s => ⟨rfl, fun _ h => s.hostReset_readByte_font h, fun _ hlo hhi => s.hostReset_readByte_zero hlo hhi⟩

/-- Settles O9: the fields by their values, memory as the host's Reset of the reset state leaves it. -/
theorem resetStateHoldsResetValues : Obligations.ResetStateHoldsResetValues := by
  refine ⟨fun r => ?_, rfl, rfl, rfl, fun k h => ?_, rfl, rfl, fun a h => ?_, fun a hlo hhi => ?_, fun x y => ?_,
    rfl, rfl, rfl, rfl, rfl, rfl⟩
  · exact Vector.getElem_replicate r.isLt
  · exact Vector.getElem_replicate h
  · exact State.reset.hostReset_readByte_font h
  · exact State.reset.hostReset_readByte_zero hlo hhi
  · exact Framebuffer.cell_blank x y

/-- Settles O59: nothing is recorded, reported or sounding, and memory lists nothing. -/
theorem resetMeetsInvariant : Obligations.ResetMeetsInvariant := by
  have hreset (s : State) : s.hostReset.Inv :=
    { memCanonical := rfl
      soundFollows := rfl
      haltedIff := ⟨fun h => absurd h Bool.false_ne_true, fun h => absurd rfl h⟩
      faultIsTrue := fun h => absurd h Bool.false_ne_true
      diagIsTrue := fun h => absurd h Bool.false_ne_true }
  exact ⟨hreset State.reset, hreset⟩

/-! ### Load -/

theorem State.load_of_le (s : State) {buf : List Byte} (h : buf.length ≤ programMax) :
    s.load buf = (.loadOk, s.storeBytes programBase buf) := if_neg (Nat.not_lt.2 h)

theorem State.load_of_gt (s : State) {buf : List Byte} (h : programMax < buf.length) :
    s.load buf = (.loadFailed, s) := if_pos h

/-- A store writes memory alone. -/
theorem State.storeBytes_eq (s : State) (a : Nat) (bs : List Byte) :
    s.storeBytes a bs = { s with mem := (s.storeBytes a bs).mem } := by
  simp [State.ext_iff]

/-- Settles O11: the program fits between 0x200 and the end of memory, so no address of it wraps. -/
theorem loadPlacesProgram : Obligations.LoadPlacesProgram := by
  intro s buf hwf
  refine ⟨fun hlen => ?_, s.load_of_gt⟩
  refine ⟨_, s.load_of_le hlen, State.storeBytes_eq s programBase buf, fun k hk => ?_, fun a ha hout => ?_⟩
  · exact State.readByte_storeBytes_inside hwf programBase buf (by simp only [memSize]; omega) hk
  · refine State.readByte_storeBytes_outside hwf programBase buf ?_
    rintro ⟨k, hk, e⟩
    simp only [memSize, programBase] at e
    omega

/-- Settles O60: a Load writes memory alone, by a store that keeps the canonical form; the inputs are in no clause. -/
theorem hostOperationsKeepInvariant : Obligations.HostOperationsKeepInvariant := by
  intro s buf inp hinv
  refine ⟨?_, ⟨hinv.memCanonical, hinv.soundFollows, hinv.haltedIff, hinv.faultIsTrue, hinv.diagIsTrue⟩⟩
  by_cases hlen : buf.length ≤ programMax
  · have hmem := State.storeBytes_wf hinv.memCanonical programBase buf
    rw [State.load_of_le s hlen, State.storeBytes_eq]
    exact ⟨hmem, hinv.soundFollows, hinv.haltedIff, hinv.faultIsTrue, hinv.diagIsTrue⟩
  · rwa [State.load_of_gt s (Nat.lt_of_not_le hlen)]

/-- A successful Load leaves the core as it was, memory apart. -/
theorem State.load_ok {s u : State} {buf : List Byte} (h : s.load buf = (.loadOk, u)) :
    u.halted = s.halted ∧ u.pc = s.pc := by
  by_cases hlen : buf.length ≤ programMax
  · rw [State.load_of_le s hlen] at h
    obtain rfl := congrArg Prod.snd h
    exact ⟨State.storeBytes_halted .., State.storeBytes_pc ..⟩
  · rw [State.load_of_gt s (Nat.lt_of_not_le hlen)] at h
    cases h

/-- Settles O12: after Reset, and after a Load, the core is running at 0x200, and a running step reports its fetch. -/
theorem firstCycleFetchesAt0x200 : Obligations.FirstCycleFetchesAt0x200 := by
  intro s u buf hu
  have hstart : u.halted = false ∧ u.pc = 0x200 := by
    obtain rfl | hload := hu
    · exact ⟨rfl, rfl⟩
    · exact State.load_ok hload
  obtain ⟨hrun, hpc⟩ := hstart
  obtain ⟨t, ht⟩ := everyStepAnswersNext u
  obtain ⟨hop, hvalid, haddr, hopcode⟩ := step_reports_fetch hrun ht
  refine ⟨t, ht, hvalid, haddr.trans hpc, hopcode.trans ?_, hop.trans hopcode.symm⟩
  rw [State.fetchWord, hpc]
  rfl

end Sys2Proof.Machine
end

section
/-! Control flow, the keypad and the timers (41_control_flow.md, 45_keypad_timers.md): the instructions one by one. -/

namespace Sys2Proof.Machine

/-! ### Control flow -/

/-- Settles O17: the arm of SYS is the unchanged state. -/
theorem sysChangesNothing : Obligations.SysChangesNothing := fun _ _ => rfl

/-- Settles O19, by the two cases of CALL. -/
theorem callPushesReturnAddress : Obligations.CallPushesReturnAddress := by
  intro nnn s
  obtain ⟨hlt, e⟩ | ⟨hfull, e⟩ := execCall_cases nnn s
  · refine ⟨fun h => ⟨_, e, zext16_eq nnn, rfl, Vector.getElem_set_self h, fun k hk hne => ?_, rfl⟩, fun hfull => ?_⟩
    · exact Vector.getElem_set_ne h hk (Ne.symm hne)
    · exact absurd hfull (Nat.ne_of_lt hlt)
  · exact ⟨fun h => absurd hfull (Nat.ne_of_lt h), fun _ => e⟩

/-- Settles O20, by the two cases of RET. -/
theorem retPopsReturnAddress : Obligations.RetPopsReturnAddress := by
  intro s
  obtain ⟨hpos, e⟩ | ⟨hempty, e⟩ := execRet_cases s
  · exact ⟨fun h => ⟨_, e, rfl, Nat.sub_add_cancel hpos, rfl⟩, fun hempty => absurd hempty (Nat.ne_of_gt hpos)⟩
  · exact ⟨fun h => absurd hempty (Nat.ne_of_gt h), fun _ => e⟩

/-- Settles O21: RET reads the slot CALL wrote, one below the SP it left. -/
theorem retReturnsAfterCall : Obligations.RetReturnsAfterCall := by
  intro nnn s hlt
  obtain ⟨_, e⟩ | ⟨hfull, _⟩ := execCall_cases nnn s
  · refine ⟨_, e, rfl, fun u hsp hstack => ?_⟩
    have husp : u.sp.val = s.sp.val + 1 := congrArg Fin.val hsp
    obtain ⟨_, e'⟩ | ⟨hempty, _⟩ := execRet_cases u
    · refine e'.trans (congrArg Host.Outcome.next ?_)
      simp only [hstack, husp, Nat.add_sub_cancel, Vector.getElem_set_self]
    · omega
  · exact absurd hfull (Nat.ne_of_lt hlt)

/-- Settles O23: the Boolean comparisons as decisions, for `State.skipIf_decide`. -/
theorem registerSkipsMovePc : Obligations.RegisterSkipsMovePc := by
  intro x y s
  constructor
  · have hexec : exec (.seReg x y) s = .next (s.skipIf (s.reg x == s.reg y)) := rfl
    rw [hexec, beq_eq_decide, State.skipIf_decide]
  · have hexec : exec (.sneReg x y) s = .next (s.skipIf (s.reg x != s.reg y)) := rfl
    rw [hexec, bne, beq_eq_decide, ← decide_not, State.skipIf_decide]

/-- Settles O24: `pressed` holds in the first case and fails in the second, by `pressed_iff`. -/
theorem keySkipsMovePc : Obligations.KeySkipsMovePc := by
  intro x s
  have hskp : exec (.skp x) s = .next (s.skipIf (pressed (s.reg x) s)) := rfl
  have hsknp : exec (.sknp x) s = .next (s.skipIf (!pressed (s.reg x) s)) := rfl
  rw [hskp, hsknp]
  constructor
  · intro k hk hreg
    rw [(pressed_iff (s.reg x) s).2 ⟨k, hk, hreg⟩]
    exact ⟨rfl, rfl⟩
  · intro hno
    have hnot : pressed (s.reg x) s = false := by
      rw [Bool.eq_false_iff, ne_eq, pressed_iff]
      rintro ⟨k, hk, hreg⟩
      exact hno k hk hreg
    rw [hnot]
    exact ⟨rfl, rfl⟩

/-- Settles O25: a 12-bit address and a byte add up below 65536, so the sum is not reduced. -/
theorem offsetJumpSetsPc : Obligations.OffsetJumpSetsPc := by
  intro nnn s
  have hsum (b : Byte) : (trunc16 (nnn.toNat + b.toNat)).toNat = nnn.toNat + b.toNat := by
    have hn := nnn.isLt
    have hb := b.isLt
    exact Nat.mod_eq_of_lt (by omega)
  refine ⟨_, rfl, rfl, fun hv0 => ?_, fun hvx x hx => ?_⟩
  · rw [State.setPc_pc, hsum, jumpOffset_v0 hv0]
  · rw [State.setPc_pc, hsum, jumpOffset_vx hvx hx]

/-! ### Keypad and timers -/

/-- Settles O46: one write each, and the end of the cycle as `timerAfter_toNat` gives it. -/
theorem timerTransfersAreDirect : Obligations.TimerTransfersAreDirect := by
  intro x s
  have hldXDt : exec (.ldXDt x) s = .next (s.setReg x s.dt) := rfl
  refine ⟨exec_writes_one_reg hldXDt, ⟨_, rfl, rfl, timerAfter_toNat _ _⟩, _, rfl, rfl, timerAfter_toNat _ _, ?_⟩
  rw [State.endCycle_st, timerAfter_toNat]
  exact timerAfter_ne_zero _ _

/-- Settles O47, by the two cases of `execLdXK_cases`. -/
theorem keyWaitCompletesOnKeyDown : Obligations.KeyWaitCompletesOnKeyDown := by
  intro x s
  obtain ⟨key, hdown, e⟩ | ⟨hnone, e⟩ := execLdXK_cases x s
  · obtain ⟨hedge, hkey⟩ := keyDown_eq_some.1 hdown
    refine ⟨fun k _ hk => ?_, fun hquiet => ?_⟩
    · obtain rfl := Option.some.inj (hkey.symm.trans hk)
      refine ⟨_, e, rfl, ?_, fun r hr => State.reg_setReg_ne s _ hr⟩
      rw [State.reg_setReg_self, trunc8_key]
    · simp [hedge, hkey] at hquiet
  · refine ⟨fun k hedge hk => ?_, fun _ => e⟩
    rw [keyDown_eq_some.2 ⟨hedge, hk⟩] at hnone
    cases hnone

end Sys2Proof.Machine
end

section
/-! Registers, index and memory (42_alu.md, 43_index_memory.md): the instructions one by one. -/

namespace Sys2Proof.Machine

/-! ### Registers and ALU -/

/-- What a result with a flag leaves, said of the instruction that is such a write: VF is the flag, V[x] the result
unless X = F, and nothing else changes. -/
theorem exec_writes_reg_and_flag {i : Instr} {s : State} {x : Reg} {p : Byte × Bool}
    (hexec : exec i s = .next (s.setRegFlag x p)) :
    ∃ t, exec i s = .next t ∧ t = { s with v := t.v } ∧ (t.reg vf = if p.2 = true then 1 else 0) ∧
      (x ≠ vf → t.reg x = p.1) ∧ ∀ r, r ≠ x → r ≠ vf → t.reg r = s.reg r := by
  refine ⟨_, hexec, rfl, ?_, fun hx => ?_, fun r hr hvf => ?_⟩
  · rw [State.reg_setRegFlag, if_pos rfl]
  · rw [State.reg_setRegFlag, if_neg hx, if_pos rfl]
  · rw [State.reg_setRegFlag, if_neg hvf, if_neg hr]

/-- Settles O29, with the sum and the carry of `addCarry`. -/
theorem addRegisterSetsCarry : Obligations.AddRegisterSetsCarry := by
  intro x y s
  have hadd : exec (.addReg x y) s = .next (s.setRegFlag x (addCarry (s.reg x) (s.reg y))) := rfl
  obtain ⟨t, hnext, hframe, hflag, hres, hrest⟩ := exec_writes_reg_and_flag hadd
  refine ⟨t, hnext, hframe, ?_, fun hx => ?_, hrest⟩
  · simpa only [addCarry_snd, decide_eq_true_eq] using hflag
  · rw [hres hx, addCarry_fst]

/-- Settles O30, with the difference and the NOT borrow of `subNoBorrow`, the operands exchanged for SUBN. -/
theorem subtractionsSetNoBorrow : Obligations.SubtractionsSetNoBorrow := by
  intro x y s
  have hsub : exec (.sub x y) s = .next (s.setRegFlag x (subNoBorrow (s.reg x) (s.reg y))) := rfl
  have hsubn : exec (.subn x y) s = .next (s.setRegFlag x (subNoBorrow (s.reg y) (s.reg x))) := rfl
  constructor
  · simpa only [subNoBorrow_fst, subNoBorrow_snd, decide_eq_true_eq] using exec_writes_reg_and_flag hsub
  · simpa only [subNoBorrow_fst, subNoBorrow_snd, decide_eq_true_eq] using exec_writes_reg_and_flag hsubn

/-- Settles O31, with the shifted byte and the bit shifted out of `shiftRight` and `shiftLeft`. -/
theorem shiftsSetShiftedOutBit : Obligations.ShiftsSetShiftedOutBit := by
  intro x y s b hb
  have hoperand := shiftOperand_eq hb
  have hshr : exec (.shr x y) s = .next (s.setRegFlag x (shiftRight b)) := by rw [← hoperand]; rfl
  have hshl : exec (.shl x y) s = .next (s.setRegFlag x (shiftLeft b)) := by rw [← hoperand]; rfl
  constructor
  · obtain ⟨t, hnext, hframe, hflag, hres, hrest⟩ := exec_writes_reg_and_flag hshr
    refine ⟨t, hnext, hframe, ?_, fun hx => ?_, hrest⟩
    · simpa only [shiftRight_snd, decide_eq_true_eq] using hflag
    · rw [hres hx, shiftRight_fst]
  · obtain ⟨t, hnext, hframe, hflag, hres, hrest⟩ := exec_writes_reg_and_flag hshl
    refine ⟨t, hnext, hframe, ?_, fun hx => ?_, hrest⟩
    · simpa only [shiftLeft_snd, decide_eq_true_eq] using hflag
    · rw [hres hx, shiftLeft_fst]

/-- Settles O32: RND is the write of one register. -/
theorem rndMasksRandomByte : Obligations.RndMasksRandomByte := by
  intro x nn s
  have hrnd : exec (.rnd x nn) s = .next (s.setReg x (s.input.rnd &&& nn)) := rfl
  exact exec_writes_one_reg hrnd

/-! ### Index and memory -/

/-- Settles O34: I by the 16-bit sum, the registers by `State.reg_setIndexFlag`. -/
theorem addIndexSetsOverflowFlag : Obligations.AddIndexSetsOverflowFlag := by
  rintro x s sum rfl
  have hexec : exec (.addI x) s =
      .next ((s.setI (trunc16 (s.i.toNat + (s.reg x).toNat))).setIndexFlag (s.i.toNat + (s.reg x).toNat)) := rfl
  have hreg (r : Reg) := State.reg_setIndexFlag (s.setI (trunc16 (s.i.toNat + (s.reg x).toNat)))
    (s.i.toNat + (s.reg x).toNat) r
  refine ⟨_, hexec, exec_writesAtMost hexec, ?_, fun hover => ?_, fun hle hclear => ?_, fun hle hkeep => ?_,
    fun r hr => ?_⟩
  · rw [State.setIndexFlag_i]
    exact BitVec.toNat_ofNat _ _
  · rw [hreg, if_pos rfl, if_pos hover]
  · rw [hreg, if_pos rfl, if_neg (Nat.not_lt.2 hle), State.setI_cfg, if_pos hclear]
  · rw [hreg, if_pos rfl, if_neg (Nat.not_lt.2 hle), State.setI_cfg, hkeep]
    rfl
  · rw [hreg, if_neg hr]
    rfl

theorem advanceIndex_toNat (s : State) (x : Reg) :
    (s.advanceIndex x).i.toNat =
      if s.cfg.indexAdvance = true then (s.i.toNat + x.val + 1) % 65536 else s.i.toNat := by
  rw [State.advanceIndex_i, apply_ite BitVec.toNat]
  rfl

/-- The digits of a byte, by their place. -/
theorem bcdDigits_toNat (b : Byte) :
    ((bcdDigits b)[0]).toNat = b.toNat / 100 ∧ ((bcdDigits b)[1]).toNat = b.toNat / 10 % 10 ∧
    ((bcdDigits b)[2]).toNat = b.toNat % 10 := by
  have hb := b.isLt
  simp only [bcdDigits, trunc8, List.getElem_cons_zero, List.getElem_cons_succ, BitVec.toNat_ofNat]
  omega

/-- Settles O35: the three digits are the block `State.storeBytes` writes. -/
theorem bcdStoresThreeDigits : Obligations.BcdStoresThreeDigits := by
  intro x s hwf
  have hexec : exec (.ldB x) s = .next (s.storeBytes s.i.toNat (bcdDigits (s.reg x))) := rfl
  have hread (k : Nat) (hk : k < 3) :=
    State.readByte_storeBytes_inside hwf s.i.toNat (bcdDigits (s.reg x)) (by rw [bcdDigits_length]; decide) hk
  obtain ⟨hhundreds, htens, hones⟩ := bcdDigits_toNat (s.reg x)
  refine ⟨_, hexec, exec_writesAtMost hexec, ?_, ?_, ?_, fun a ha => exec_keeps_byte hexec hwf ha⟩
  · rw [← hhundreds, ← hread 0 (by decide)]
    rfl
  · rw [hread 1 (by decide), htens]
  · rw [hread 2 (by decide), hones]

/-- Settles O36, from the digits of O35. -/
theorem bcdDigitsRecomposeValue : Obligations.BcdDigitsRecomposeValue := by
  intro x s t hwf hexec
  obtain ⟨u, hu, hframe, hhundreds, htens, hones, -⟩ := bcdStoresThreeDigits x s hwf
  obtain rfl := next_unique hu hexec
  have hreg : u.reg x = s.reg x := State.reg_eq_of_v_eq (congrArg State.v hframe :) x
  have hlt := (s.reg x).isLt
  rw [hhundreds, htens, hones, hreg]
  omega

/-- Settles O37: the registers are the block `State.storeBytes` writes, and I advances as `advanceIndex_toNat` says. -/
theorem storeRegistersWritesBlock : Obligations.StoreRegistersWritesBlock := by
  intro x s hwf
  have hexec : exec (.ldMemX x) s = .next ((s.storeBytes s.i.toNat (regBlock x s)).advanceIndex x) := rfl
  refine ⟨_, hexec, exec_writesAtMost hexec, fun k hk => ?_, fun a ha => exec_keeps_byte hexec hwf ha, ?_⟩
  · have hx := x.isLt
    have hk' : k.val < (regBlock x s).length := by rw [regBlock_length]; exact Nat.lt_succ_of_le hk
    rw [State.readByte_of_mem_eq (State.advanceIndex_mem _ x) (State.advanceIndex_cfg _ x),
      State.readByte_storeBytes_inside hwf _ _ (by rw [regBlock_length, memSize]; omega) hk', regBlock_getElem]
  · rw [advanceIndex_toNat, State.storeBytes_cfg, State.storeBytes_i]

/-- Settles O38: the loaded registers one by one, and I as `advanceIndex_toNat` says. -/
theorem loadRegistersReadsBlock : Obligations.LoadRegistersReadsBlock := by
  intro x s
  have hexec : exec (.ldXMem x) s = .next ((s.setRegs (loadedRegs x s)).advanceIndex x) := rfl
  refine ⟨_, hexec, exec_writesAtMost hexec, fun k => ?_, ?_⟩
  · rw [State.reg_eq_of_v_eq (State.advanceIndex_v _ x), State.reg_setRegs_loadedRegs]
    rfl
  · rw [advanceIndex_toNat, State.setRegs_cfg, State.setRegs_i]

/-- Settles O39: the load reads, through the same I, the bytes O37 says were stored. -/
theorem loadRegistersInvertsStore : Obligations.LoadRegistersInvertsStore := by
  intro x s t u w hwf hstore hmem hcfg hi hload k hk
  obtain ⟨t', ht', -, hstored, -⟩ := storeRegistersWritesBlock x s hwf
  obtain rfl := next_unique ht' hstore
  obtain ⟨w', hw', -, hloaded, -⟩ := loadRegistersReadsBlock x u
  obtain rfl := next_unique hw' hload
  have hread : u.readByte (s.i.toNat + k.val) = t'.readByte (s.i.toNat + k.val) :=
    State.readByte_of_mem_eq hmem (hcfg.trans (exec_keeps_cfg hstore).symm) _
  rw [hloaded k, if_pos hk, hi, ← hstored k hk, ← hread]
  rfl

end Sys2Proof.Machine
end

section
/-! Drawing (44_display.md): one draw, two draws, and who writes the framebuffer. -/

namespace Sys2Proof.Machine

/-! ### One draw -/

/-- DRW from the coordinates as numbers (44_display.md R201). -/
theorem exec_drw_eq (x y : Reg) (n : BitVec 4) (s : State) {x0 y0 : Nat} (hx0 : x0 = (s.reg x).toNat % 64)
    (hy0 : y0 = (s.reg y).toNat % 32) :
    exec (.drw x y n) s =
      .next ((s.setFb (drawSprite x0 (s.spriteBytes n.toNat) y0 (s.fb, false)).1).setFlag
        (drawSprite x0 (s.spriteBytes n.toNat) y0 (s.fb, false)).2) := by
  rw [hx0, hy0, ← spriteX_eq, ← spriteY_eq]
  rfl

/-- The collision flag of a draw: some covered cell of the grid was on. -/
theorem drawSprite_collides_iff (s : State) (x0 y0 n : Nat) :
    (drawSprite x0 (s.spriteBytes n) y0 (s.fb, false)).2 = true ↔
      ∃ cx cy, cx < 64 ∧ cy < 32 ∧ spriteCovers s x0 y0 n cx cy ∧ s.fb.cell cx cy = true := by
  simpa [rowsCover_spriteBytes] using (drawSprite_spec x0 (s.spriteBytes n) y0 (s.fb, false)).2

/-- Settles O41, cell by cell through `drawSprite_spec`. -/
theorem drawTogglesCoveredCells : Obligations.DrawTogglesCoveredCells := by
  intro x y n s x0 y0 hx0 hy0
  have hflag := drawSprite_collides_iff s x0 y0 n.toNat
  refine ⟨_, exec_drw_eq x y n s hx0 hy0, rfl, fun cx cy hx hy hc => ?_, fun cx cy hx hy hc => ?_, fun hon => ?_,
    fun hoff => ?_, fun r hr => ?_⟩
  · exact drawSprite_cell_of_covered hx hy ((rowsCover_spriteBytes s x0 y0 _ cx cy).2 hc)
  · exact drawSprite_cell_of_not_covered hx hy (fun h => hc ((rowsCover_spriteBytes s x0 y0 _ cx cy).1 h))
  · rw [State.reg_setFlag, if_pos rfl, if_pos (hflag.2 hon)]
  · rw [State.reg_setFlag, if_pos rfl, if_neg (fun h => hoff (hflag.1 h))]
  · rw [State.reg_setFlag, if_neg hr]
    rfl

/-- What a draw leaves, for a draw that was made: the cells, the flag as an equivalence, and the rest. -/
theorem exec_drw_cases {x y : Reg} {n : BitVec 4} {s t : State} {x0 y0 : Nat} (hx0 : x0 = (s.reg x).toNat % 64)
    (hy0 : y0 = (s.reg y).toNat % 32) (hexec : exec (.drw x y n) s = .next t) :
    (∀ cx cy, cx < 64 → cy < 32 → spriteCovers s x0 y0 n.toNat cx cy → t.fb.cell cx cy = !s.fb.cell cx cy) ∧
    (∀ cx cy, cx < 64 → cy < 32 → ¬ spriteCovers s x0 y0 n.toNat cx cy → t.fb.cell cx cy = s.fb.cell cx cy) ∧
    (t.reg vf = 1 ∨ t.reg vf = 0) ∧
    (t.reg vf = 1 ↔ ∃ cx cy, cx < 64 ∧ cy < 32 ∧ spriteCovers s x0 y0 n.toNat cx cy ∧ s.fb.cell cx cy = true) := by
  obtain ⟨u, hu, -, hcovered, hother, hon, hoff, -⟩ := drawTogglesCoveredCells x y n s x0 y0 hx0 hy0
  obtain rfl := next_unique hu hexec
  refine ⟨hcovered, hother, (Classical.em _).imp hon hoff, fun h1 => ?_, hon⟩
  by_contra hno
  exact absurd (h1.symm.trans (hoff hno)) (by decide)

/-- Settles O42: a cell that was on and is off is a covered cell that was on. -/
theorem collisionMeansCellTurnedOff : Obligations.CollisionMeansCellTurnedOff := by
  intro x y n s t hexec
  obtain ⟨hcovered, hother, hbit, hflag⟩ := exec_drw_cases rfl rfl hexec
  refine ⟨hbit, hflag.trans ⟨?_, ?_⟩⟩
  · rintro ⟨cx, cy, hx, hy, hc, hon⟩
    exact ⟨cx, cy, hx, hy, hon, by rw [hcovered cx cy hx hy hc, hon]; rfl⟩
  · rintro ⟨cx, cy, hx, hy, hon, hoff⟩
    refine ⟨cx, cy, hx, hy, ?_, hon⟩
    by_contra hc
    rw [hother cx cy hx hy hc, hon] at hoff
    exact absurd hoff (by decide)

/-! ### Two draws -/

/-- The sprite is read from memory at I, which a draw does not write. -/
theorem spriteCovers_of_drawn {x y : Reg} {n : BitVec 4} {s t : State} (hexec : exec (.drw x y n) s = .next t)
    (x0 y0 m cx cy : Nat) : spriteCovers t x0 y0 m cx cy ↔ spriteCovers s x0 y0 m cx cy := by
  have hw : t = { s with fb := t.fb, fbUpdated := true, v := t.v } := exec_writesAtMost hexec
  rw [hw]
  rfl

/-- Settles O43: the second draw covers the same cells, and finds on exactly those that were off. -/
theorem drawingTwiceRestoresFramebuffer : Obligations.DrawingTwiceRestoresFramebuffer := by
  intro x y n s t u x0 y0 hx hy hx0 hy0 hst htu
  have htx : t.reg x = s.reg x := exec_keeps_reg hst hx
  have hty : t.reg y = s.reg y := exec_keeps_reg hst hy
  obtain ⟨hcovered, hother, -, hflag⟩ := exec_drw_cases hx0 hy0 hst
  obtain ⟨hcovered', hother', -, hflag'⟩ := exec_drw_cases (hx0.trans (by rw [htx])) (hy0.trans (by rw [hty])) htu
  simp only [spriteCovers_of_drawn hst] at hcovered' hother' hflag'
  have hsecond : u.reg vf = 1 ↔
      ∃ cx cy, cx < 64 ∧ cy < 32 ∧ spriteCovers s x0 y0 n.toNat cx cy ∧ s.fb.cell cx cy = false := by
    rw [hflag']
    refine exists_congr fun cx => exists_congr fun cy => ?_
    refine and_congr_right fun hcx => and_congr_right fun hcy => and_congr_right fun hc => ?_
    rw [hcovered cx cy hcx hcy hc, Bool.not_eq_true']
  refine ⟨Framebuffer.ext_cell fun cx cy hcx hcy => ?_, hsecond, fun hno => hsecond.trans ?_⟩
  · by_cases hc : spriteCovers s x0 y0 n.toNat cx cy
    · rw [hcovered' cx cy hcx hcy hc, hcovered cx cy hcx hcy hc, Bool.not_not]
    · rw [hother' cx cy hcx hcy hc, hother cx cy hcx hcy hc]
  · refine ⟨fun ⟨cx, cy, hcx, hcy, hc, _⟩ => ⟨cx, cy, hcx, hcy, hc⟩, fun ⟨cx, cy, hcx, hcy, hc⟩ => ?_⟩
    refine ⟨cx, cy, hcx, hcy, hc, Bool.eq_false_iff.2 fun hon => ?_⟩
    exact absurd ((hflag.2 ⟨cx, cy, hcx, hcy, hc, hon⟩).symm.trans hno) (by decide)

/-- The reset state with every cell on: I is 0, so the sprite is the glyph of 0, whose first row is 0xF0. -/
def State.allOn : State := State.reset.setFb (Vector.replicate screenW (Vector.replicate screenH true))

theorem State.allOn_cell {cx cy : Nat} (hx : cx < 64) (hy : cy < 32) : State.allOn.fb.cell cx cy = true := by
  rw [Framebuffer.cell_of_lt _ hx hy]
  simp [State.allOn]

/-- Refutes O44: on the screen with every cell on the first draw turns the covered cells off and the second turns them
on again, so the second does not collide, though the sprite has set bits in the grid. -/
theorem not_secondDrawCollidesFromEveryScreen : ¬ Obligations.SecondDrawCollidesFromEveryScreen := by
  intro h
  have hx : (1 : Reg) ≠ vf := by decide
  have hy : (2 : Reg) ≠ vf := by decide
  obtain ⟨t, ht⟩ := exec_answers_next (.drw 1 2 1) State.allOn
  obtain ⟨u, hu⟩ := exec_answers_next (.drw 1 2 1) t
  have hcovers : spriteCovers State.allOn 0 0 1 0 0 := by
    unfold spriteCovers
    decide
  have hcollides : u.reg vf = 1 := (h 1 2 1 State.allOn t u hx hy ht hu).2 ⟨0, 0, by decide, by decide, hcovers⟩
  obtain ⟨-, hflag, -⟩ := drawingTwiceRestoresFramebuffer 1 2 1 State.allOn t u 0 0 hx hy rfl rfl ht hu
  obtain ⟨cx, cy, hcx, hcy, -, hoff⟩ := hflag.1 hcollides
  exact absurd ((State.allOn_cell hcx hcy).symm.trans hoff) (by decide)

end Sys2Proof.Machine
end
